-- ==== Sys2Proof/Word.lean ====
section
/-! DEFINITION. The widths of the block's registers and of its operation words (00_scope.md rule R9,
30_encoding.md rule R70). -/

namespace Sys2Proof

/-- A 16-bit operation or event word (rule R70). -/
abbrev Word := BitVec 16

/-- The 8-bit byte, the one data width that crosses the block's interface (rule R53). -/
abbrev Byte := BitVec 8

/-- The 10 bits of either shift register (rules R9, R21, R22). -/
abbrev Shift := BitVec 10

/-- The 4 bits of the bit counter (rules R9, R23). -/
abbrev Count := BitVec 4

end Sys2Proof
end

