-- ==== Sys2Proof/Config.lean ====
section
/-! DEFINITION. The build-time configuration of the block (00_scope.md rule R6) and the one free value of the
model. What is computed from a configuration (the bit time, legality) is in Machine/Operands.lean. -/

namespace Sys2Proof

/-- P_HANDLER_BINDING (rule R6): how the handlers are reached. No rule depends on it (D37). -/
inductive HandlerBinding where
  | direct
  | dispatcher
  deriving DecidableEq, Repr

/-- P_RXMODE_OUT (rule R6, D13): the compare output level left by the receive arming; OPEN, `draw` when unset. -/
inductive RxmodeOut where
  | zero
  | one
  | draw
  deriving DecidableEq, Repr

/-- The parameters of rule R6. P_BIT_TIME and P_HALF_BIT_TIME are computed from these (Machine/Operands.lean). -/
structure Config where
  /-- P_F_CLK, the timer's clock frequency in Hz. -/
  fClk : Nat
  /-- P_BAUD, the baud rate in bit/s. -/
  baud : Nat
  /-- P_HALF_BIT_TIME where the model is given one; `none` takes the default of D10. -/
  halfBitTimeGiven : Option Nat
  /-- P_TIMER_BITS, the width W of the timer counter and of the compare register. -/
  timerBits : Nat
  /-- P_RX_ENABLED. -/
  rxEnabled : Bool
  /-- P_CC_DEDICATED: the compare channel has its own vector (else it shares the vector register). -/
  ccDedicated : Bool
  /-- P_HANDLER_BINDING. -/
  handlerBinding : HandlerBinding
  /-- P_ARM_CLEARS_FLAG (OPEN, D17). -/
  armClearsFlag : Bool
  /-- P_RXMODE_OUT (OPEN, D13). -/
  rxmodeOut : RxmodeOut
  /-- P_RX_LINE_INIT, the RX level at reset. -/
  rxLineInit : Bool
  /-- A TX pin is given (rule R8: required, so that receive-only is rejected, rule R3). -/
  txPinGiven : Bool
  /-- The compare channel and timer are of a supported kind (rule R8). -/
  channelSupported : Bool
  deriving DecidableEq, Repr

/-- `draw()` of rule R11: the level the receive mode leaves on the compare output when P_RXMODE_OUT is `draw`
(rule R131). Applied to the number of the draw; it has no body, so nothing can be proved of its value. -/
opaque Config.drawBit : Nat → Bool

/-- Configuration K8 of 95_test_vectors.md section 0. P_ARM_CLEARS_FLAG is left there at either value; the model
names false (DESIGN CHOICE, notes/assumptions/2.md). -/
def Config.k8 : Config where
  fClk := 16
  baud := 2
  halfBitTimeGiven := none
  timerBits := 16
  rxEnabled := true
  ccDedicated := true
  handlerBinding := .direct
  armClearsFlag := false
  rxmodeOut := .one
  rxLineInit := true
  txPinGiven := true
  channelSupported := true

end Sys2Proof
end

