-- ==== Sys2Proof/Syntax.lean ====
section
/-! DEFINITION. The operations and events of the block (30_encoding.md rules R71 to R77): one constructor of
`Instr` for each row of spec/opcode_table.json. -/

namespace Sys2Proof

/-- The eight operations and events (rule R73). -/
inductive Instr where
  /-- INIT, `initialize()` (rule R100). -/
  | init
  /-- SEND, `send_byte_sync(byte)` (rule R101). -/
  | send (byte : Byte)
  /-- RECV, `receive_byte_sync()` (rule R110). -/
  | recv
  /-- FG, the event word of one foreground micro-step (rule R115). -/
  | fg
  /-- IRQ_EDGE, one invocation of the edge-detect handler (rule R130). -/
  | irqEdge
  /-- IRQ_CC, one invocation of the timer-compare handler (rule R140). -/
  | irqCc
  /-- TICK, one period of the timer's clock (rule R160). -/
  | tick
  /-- LINE, a new level of the RX line (rule R163). -/
  | line (level : Bool)
  deriving DecidableEq, Repr

/-- The two groups of words (rule R71). -/
inductive Group where
  | host
  | event
  deriving DecidableEq, Repr

/-- The four agents that step the block (10_state.md rule R20). -/
inductive Agent where
  | fg
  | irq
  | tmr
  | env
  deriving DecidableEq, Repr

/-- The group of a word (rules R71, R73). -/
def Instr.group : Instr → Group
  | .init => .host
  | .send _ => .host
  | .recv => .host
  | .fg => .event
  | .irqEdge => .event
  | .irqCc => .event
  | .tick => .event
  | .line _ => .event

/-- The agent that takes the step (rules R20, R71): host commands are executed by FG. -/
def Instr.agent : Instr → Agent
  | .init => .fg
  | .send _ => .fg
  | .recv => .fg
  | .fg => .fg
  | .irqEdge => .irq
  | .irqCc => .irq
  | .tick => .tmr
  | .line _ => .env

/-- The mnemonic of rule R73 and spec/opcode_table.json. -/
def Instr.mnemonic : Instr → String
  | .init => "INIT"
  | .send _ => "SEND"
  | .recv => "RECV"
  | .fg => "FG"
  | .irqEdge => "IRQ_EDGE"
  | .irqCc => "IRQ_CC"
  | .tick => "TICK"
  | .line _ => "LINE"

/-- The assembler text of rule R76; SEND's byte is written in decimal, one of the two forms the rule allows. -/
def Instr.render : Instr → String
  | .init => "INIT"
  | .send b => "SEND " ++ toString b.toNat
  | .recv => "RECV"
  | .fg => "@FG"
  | .irqEdge => "@EDGE"
  | .irqCc => "@CC"
  | .tick => "@TICK"
  | .line v => if v then "@LINE 1" else "@LINE 0"

/-- A line of assembler text: an operation or event, or the one pseudo-instruction TICKS n (rule R77). -/
inductive AsmLine where
  | word (i : Instr)
  | ticks (n : Nat)
  deriving DecidableEq, Repr

/-- The operations a line stands for: TICKS n is n consecutive TICK (rule R77). -/
def AsmLine.expand : AsmLine → List Instr
  | .word i => [i]
  | .ticks n => List.replicate n .tick

end Sys2Proof
end

