-- ==== Sys2Proof/WellFormed.lean ====
section
/-! DEFINITION. Which operations exist in a given configuration (30_encoding.md rules R73 column needs, R75). The
widths of the operands are in the types of `Instr`: SEND's byte has 8 bits (rule R55), LINE's level one (rule R72). -/

namespace Sys2Proof

/-- The operation needs P_RX_ENABLED = 1 (rule R73, column needs). -/
def Instr.needsRx : Instr → Bool
  | .init => false
  | .send _ => false
  | .recv => true
  | .fg => false
  | .irqEdge => true
  | .irqCc => false
  | .tick => false
  | .line _ => true

/-- The operation exists in the configuration (rules R73, R75: REFUSE_NO_RX otherwise). -/
def Instr.wellFormed (c : Config) (i : Instr) : Bool :=
  !i.needsRx || c.rxEnabled

/-- The operation exists and stands in the right list: host commands in the host program, events in the schedule
(rules R71, R75: REFUSE_GROUP otherwise). -/
def Instr.wellFormedIn (c : Config) (g : Group) (i : Instr) : Bool :=
  i.wellFormed c && i.group == g

end Sys2Proof
end

