-- ==== Sys2Proof/Decode.lean ====
section
/-! DEFINITION. The decoder of the 16-bit words, total on every word and refusing by name, then the encoder and the
opcode table (30_encoding.md rules R70 to R75). -/

namespace Sys2Proof

/-- The named refusals of rule R75. All are safe: a refused word has no step (rule R202). -/
inductive WordRefusal where
  /-- REFUSE_RESERVED_OP: `op` is 0x0, 0x5, 0x6, 0x7 or 0xC to 0xF. -/
  | reservedOp
  /-- REFUSE_RESERVED_BITS: `rsv` is not 0. -/
  | reservedBits
  /-- REFUSE_OPERAND: operand bits that must be 0 are not. -/
  | operand
  /-- REFUSE_NO_RX: RECV, IRQ_EDGE or LINE when P_RX_ENABLED = 0. -/
  | noRx
  /-- REFUSE_GROUP: a host command in the schedule, or an event word in the host program. -/
  | group
  deriving DecidableEq, Repr

/-- Bits 15:12, the operation code (rule R70). -/
def opField (w : Word) : BitVec 4 := w.extractLsb' 12 4

/-- Bits 11:8, reserved (rule R70). -/
def rsvField (w : Word) : BitVec 4 := w.extractLsb' 8 4

/-- Bits 7:0, the operand byte (rule R70). -/
def immField (w : Word) : Byte := w.extractLsb' 0 8

/-- The operand byte must be 0x00 (rule R72). -/
def noOperand (imm : Byte) (i : Instr) : Except WordRefusal Instr :=
  if imm = 0#8 then .ok i else .error .operand

/-- The operation of an operation code with its operand byte (rules R72, R73), the reserved codes refused
(rule R75). -/
def decodeOp (op : BitVec 4) (imm : Byte) : Except WordRefusal Instr :=
  if op = 0x1#4 then noOperand imm .init
  else if op = 0x2#4 then .ok (.send imm)
  else if op = 0x3#4 then noOperand imm .recv
  else if op = 0x4#4 then noOperand imm .fg
  else if op = 0x8#4 then noOperand imm .irqEdge
  else if op = 0x9#4 then noOperand imm .irqCc
  else if op = 0xA#4 then noOperand imm .tick
  else if op = 0xB#4 then
    if imm = 0#8 then .ok (.line false)
    else if imm = 1#8 then .ok (.line true)
    else .error .operand
  else .error .reservedOp

/-- The decoder (rules R70 to R75). Where several refusals apply the spec fixes no precedence; the order here
is DESIGN CHOICE (notes/assumptions/9.md). -/
def decode (c : Config) (w : Word) : Except WordRefusal Instr :=
  match decodeOp (opField w) (immField w) with
  | .error r => .error r
  | .ok i =>
    if rsvField w ≠ 0#4 then .error .reservedBits
    else if i.wellFormed c then .ok i
    else .error .noRx

/-- Decoding a word of the host program (`g = host`) or of the schedule (`g = event`): a word of the other group
is refused (rules R71, R75). -/
def decodeIn (g : Group) (c : Config) (w : Word) : Except WordRefusal Instr :=
  match decode c w with
  | .error r => .error r
  | .ok i => if i.group = g then .ok i else .error .group

/-- The 16-bit word whose low `nbits` bits are those of `w`, every bit above them 0. -/
def tableWord (nbits w : Nat) : Word := BitVec.ofNat 16 (w % 2 ^ nbits)

/-- The instruction the decoder reads from a word of the opcode table, in configuration K8 (which has receive
support, so that every row exists). -/
def decodeTableWord (nbits w : Nat) : Option Instr :=
  if nbits ≤ 16 then
    match decode Config.k8 (tableWord nbits w) with
    | .ok i => some i
    | .error _ => none
  else none

/-- The operation code of rule R73. -/
def opCode : Instr → BitVec 4
  | .init => 0x1#4
  | .send _ => 0x2#4
  | .recv => 0x3#4
  | .fg => 0x4#4
  | .irqEdge => 0x8#4
  | .irqCc => 0x9#4
  | .tick => 0xA#4
  | .line _ => 0xB#4

/-- The operand byte of rule R72. -/
def immOf : Instr → Byte
  | .init => 0#8
  | .send b => b
  | .recv => 0#8
  | .fg => 0#8
  | .irqEdge => 0#8
  | .irqCc => 0#8
  | .tick => 0#8
  | .line v => if v then 1#8 else 0#8

/-- The word of an operation: operation code, reserved bits 0, operand byte (rules R70, R72, R73). -/
def encode (i : Instr) : Word := opCode i ++ (0#4 ++ immOf i)

/-- One row of the opcode map of rule R73: a word `w` is the row's operation when `w` and `mask` give `pattern`. -/
structure OpcodeRow where
  mnemonic : String
  pattern : Word
  mask : Word
  group : Group
  needsRx : Bool
  deriving DecidableEq, Repr

/-- The opcode map of rule R73, written out from its table. -/
def opcodeTable : List OpcodeRow :=
  [ ⟨"INIT", 0x1000#16, 0xFFFF#16, .host, false⟩,
    ⟨"SEND", 0x2000#16, 0xFF00#16, .host, false⟩,
    ⟨"RECV", 0x3000#16, 0xFFFF#16, .host, true⟩,
    ⟨"FG", 0x4000#16, 0xFFFF#16, .event, false⟩,
    ⟨"IRQ_EDGE", 0x8000#16, 0xFFFF#16, .event, true⟩,
    ⟨"IRQ_CC", 0x9000#16, 0xFFFF#16, .event, false⟩,
    ⟨"TICK", 0xA000#16, 0xFFFF#16, .event, false⟩,
    ⟨"LINE", 0xB000#16, 0xFFFE#16, .event, true⟩ ]

/-- The word is the row's operation (rule R73). -/
def OpcodeRow.matchesWord (r : OpcodeRow) (w : Word) : Bool := (w &&& r.mask) == r.pattern

/-- The condition under which rule R75 lets a refusal name be reported for a word in a list of group `g`. -/
def WordRefusal.applies (c : Config) (g : Group) (w : Word) : WordRefusal → Prop
  | .reservedOp => opField w ∈ [0x0#4, 0x5#4, 0x6#4, 0x7#4, 0xC#4, 0xD#4, 0xE#4, 0xF#4]
  | .reservedBits => rsvField w ≠ 0#4
  | .operand =>
      (opField w ∈ [0x1#4, 0x3#4, 0x4#4, 0x8#4, 0x9#4, 0xA#4] ∧ immField w ≠ 0#8) ∨
      (opField w = 0xB#4 ∧ (immField w).extractLsb' 1 7 ≠ 0#7)
  | .noRx => opField w ∈ [0x3#4, 0x8#4, 0xB#4] ∧ c.rxEnabled = false
  | .group =>
      (opField w ∈ [0x1#4, 0x2#4, 0x3#4] ∧ g = .event) ∨
      (opField w ∈ [0x4#4, 0x8#4, 0x9#4, 0xA#4, 0xB#4] ∧ g = .host)

/-- The words a line of assembler text stands for (rules R76, R77). -/
def AsmLine.words (l : AsmLine) : List Word := l.expand.map encode

end Sys2Proof
end

