-- ==== Sys2Proof/Machine/State.lean ====
section
/-! DEFINITION. The state of the block as plain data (10_state.md), its reset, and the reasons a step can stop. -/

namespace Sys2Proof.Machine

/-- The model faults of 60_exceptions.md rule R203, a closed list. An operation RECORDS one in `State.faults` and
goes to a next state (rules R11, R38); every later step answers the recorded one, which is safe (rule R203: no claim
can be proved about a run that reaches it). -/
inductive Fault where
  /-- NOT_INITIALIZED: raised by SEND and RECV started with `initialized = 0` (rules R101, R110). Safe. -/
  | notInitialized
  /-- INIT_BUSY: raised by INIT while a transfer is in flight (rule R100). Safe. -/
  | initBusy
  /-- EDGE_IN_ARM_WINDOW: raised by the edge handler while SEND is at S3 to S7 (rule R132). Safe. -/
  | edgeInArmWindow
  /-- UNWRITTEN: raised, as rules R37 and R203 say, by a read of `txsh`, `rxsh` or `bitcnt` before any write: FG at S6
  and at R2 (rule R112) and the compare handler (rules R140, R141). No run from reset reaches it (rule R37). Safe. -/
  | unwritten
  /-- BITCNT_RANGE: raised by the compare handler when it reads `bitcnt` above 10 (rule R140). Safe. -/
  | bitcntRange
  deriving DecidableEq, Repr

/-- Why a step has no next state without a model fault. All are safe: the spec gives the step no meaning. -/
inductive Refusal where
  /-- An instruction that has no meaning yet. No arm of this model answers it. Safe. -/
  | notModelled (mnemonic : String)
  /-- REFUSE_CONFIG: the configuration is illegal, so no step runs (rules R8, R201); answered by `step`. Safe. -/
  | config
  /-- The word is refused by the decoder under one of the names of rule R75; answered by `step`, by FG for a host
  command word, and by RECV, IRQ_EDGE and LINE without receive support. Safe. -/
  | word (why : WordRefusal)
  /-- FG holds: S2 with `receiving = 1`, S8 with `ccie = 1` or R1 with `byte_ready = 0` has no FG step (rule R115);
  answered by FG. Safe. -/
  | fgHold
  /-- FG is at IDLE and no host command is left, so it has no step (rules R115, R233); answered by FG. Safe. -/
  | fgFinished
  /-- A host command starts only at IDLE (rules R35, R100, R101, R110, R116); answered by INIT, SEND, RECV. Safe. -/
  | fgBusy
  /-- The interrupt is not requested or INIT has not run, so the IRQ agent has no such step (rules R130, R140, R141,
  D21); answered by IRQ_EDGE and IRQ_CC. Safe. -/
  | notRequested
  /-- The schedule has no event word left, so no agent is named to step (rule R71); answered by `step`. Safe. -/
  | scheduleEnd
  deriving DecidableEq, Repr

/-- The timer run mode (rule R27). -/
inductive TimerMode where
  | stop
  | cont
  deriving DecidableEq, Repr

/-- The compare channel's output mode (rule R31). -/
inductive OutMode where
  | hold
  | set
  | reset
  deriving DecidableEq, Repr

/-- The TX pin's direction, IN or OUT (rule R34). -/
inductive PinDir where
  | input
  | output
  deriving DecidableEq, Repr

/-- What drives the TX pin: its general-purpose latch or the compare output (rule R34). -/
inductive PinFn where
  | gpio
  | timer
  deriving DecidableEq, Repr

/-- The level of a line the block may drive; `z` is not driven (rule R34). -/
inductive LineLevel where
  | z
  | level (v : Bool)
  deriving DecidableEq, Repr

/-- The foreground phase: the next micro-step FG will take (rule R35). -/
inductive Phase where
  | idle
  | s1
  | s2
  | s3
  | s4
  | s5
  | s6
  | s7
  | s8
  | r1
  | r2
  deriving DecidableEq, Repr

/-- Every element of 10_state.md, the two lists a run consists of (30_encoding.md rule R71), the configuration
(00_scope.md rule R6, which no operation changes) and the count of draws (the model's own). -/
structure State where
  /-- The configuration of rule R6; no step writes it. -/
  cfg : Config
  /-- Outgoing shift register (rule R21). -/
  txsh : Shift
  /-- Written mark of `txsh` (rule R37). -/
  txshWritten : Bool
  /-- Incoming shift register (rule R22). -/
  rxsh : Shift
  /-- Written mark of `rxsh` (rule R37). -/
  rxshWritten : Bool
  /-- Bit counter (rule R23). -/
  bitcnt : Count
  /-- Written mark of `bitcnt` (rule R37). -/
  bitcntWritten : Bool
  /-- A reception is in flight (rule R24). -/
  receiving : Bool
  /-- A validated byte is waiting (rule R25). -/
  byteReady : Bool
  /-- Timer counter, below 2^W (rule R26). -/
  tar : Nat
  /-- Timer run mode (rule R27). -/
  tmode : TimerMode
  /-- Compare register, below 2^W (rule R28). -/
  ccr : Nat
  /-- Compare interrupt enable (rule R29). -/
  ccie : Bool
  /-- Compare interrupt flag (rule R30). -/
  ccifg : Bool
  /-- Compare output mode (rule R31). -/
  outmod : OutMode
  /-- Compare output latch (rule R31). -/
  out : Bool
  /-- RX line level (rule R33). -/
  rxIn : Bool
  /-- The RX pin is configured (rule R33). -/
  rxCfg : Bool
  /-- Edge interrupt enable (rule R33). -/
  rxIe : Bool
  /-- Pending edge flag (rule R33). -/
  rxIfg : Bool
  /-- TX pin direction (rule R34). -/
  txDir : PinDir
  /-- TX pin function (rule R34). -/
  txFn : PinFn
  /-- TX general-purpose output latch (rule R34). -/
  txGpio : Bool
  /-- Foreground phase (rule R35). -/
  fgPhase : Phase
  /-- Operand of the SEND in progress (rule R35). -/
  fgByte : Byte
  /-- The byte the last RECV returned (rule R35). -/
  fgResult : Byte
  /-- INIT has run (rule R36). -/
  initialized : Bool
  /-- Recorded model faults, a set kept without repeats (rule R38). -/
  faults : List Fault
  /-- Ticks since reset (rule R39). -/
  now : Nat
  /-- The host program's words that FG has not started yet, next first (rules R71, R115). -/
  program : List Word
  /-- The event words still to come, next first (rule R71). -/
  schedule : List Word
  /-- MODEL'S OWN: how many draws `Config.drawBit` has answered (notes/assumptions/4.md). -/
  drawCount : Nat
  deriving DecidableEq, Repr

/-- The elements whose reset value is a draw (rule R42): any value of the type. -/
structure ResetDraws where
  tar : Nat
  tmode : TimerMode
  ccr : Nat
  ccie : Bool
  ccifg : Bool
  outmod : OutMode
  out : Bool
  rxIe : Bool
  rxIfg : Bool
  txDir : PinDir
  txFn : PinFn
  txGpio : Bool
  fgByte : Byte
  fgResult : Byte
  deriving DecidableEq, Repr

/-- The draws of `State.reset`: DESIGN CHOICE (notes/assumptions/3.md), `tar` and `ccr` as in launch state L0 of
95_test_vectors.md. -/
def ResetDraws.zero : ResetDraws where
  tar := 0
  tmode := .stop
  ccr := 0
  ccie := false
  ccifg := false
  outmod := .hold
  out := false
  rxIe := false
  rxIfg := false
  txDir := .input
  txFn := .gpio
  txGpio := false
  fgByte := 0#8
  fgResult := 0#8

/-- The reset state of rule R42 in configuration `c`, with the draws `d`; the values under the three cleared written
marks are never read (rule R37) and are DESIGN CHOICE (notes/assumptions/3.md). -/
def State.resetWith (c : Config) (d : ResetDraws) : State where
  cfg := c
  txsh := 0#10
  txshWritten := false
  rxsh := 0#10
  rxshWritten := false
  bitcnt := 0#4
  bitcntWritten := false
  receiving := false
  byteReady := false
  tar := d.tar
  tmode := d.tmode
  ccr := d.ccr
  ccie := d.ccie
  ccifg := d.ccifg
  outmod := d.outmod
  out := d.out
  rxIn := c.rxLineInit
  rxCfg := false
  rxIe := d.rxIe
  rxIfg := d.rxIfg
  txDir := d.txDir
  txFn := d.txFn
  txGpio := d.txGpio
  fgPhase := .idle
  fgByte := d.fgByte
  fgResult := d.fgResult
  initialized := false
  faults := []
  now := 0
  program := []
  schedule := []
  drawCount := 0

/-- The machine right after reset (rules R42, R230): configuration K8 and the draws named above. -/
def State.reset : State := State.resetWith Config.k8 ResetDraws.zero

end Sys2Proof.Machine
end

