-- ==== Sys2Proof/Machine/Operands.lean ====
section
/-! DEFINITION. What is computed from the configuration (00_scope.md rules R6 to R8), the timer sums, and the values
the datapath forms: framing, samples, the validator, the received byte, the TX line level. -/

namespace Sys2Proof

/-- P_BIT_TIME, rounded half up (rule R7). -/
def Config.bitTime (c : Config) : Nat := (2 * c.fClk + c.baud) / (2 * c.baud)

/-- P_HALF_BIT_TIME (rule R6, D10): half the bit time rounded down unless another value is given. -/
def Config.halfBitTime (c : Config) : Nat := c.halfBitTimeGiven.getD (c.bitTime / 2)

/-- 2^W, where the timer counter and the compare register wrap (rules R6, R10). -/
def Config.timerModulus (c : Config) : Nat := 2 ^ c.timerBits

/-- A legal configuration (rules R3, R6, R8). -/
def Config.legal (c : Config) : Bool :=
  c.txPinGiven && c.channelSupported && decide (0 < c.fClk) && decide (0 < c.baud) &&
  decide (2 ≤ c.bitTime) && decide (c.bitTime < c.timerModulus) &&
  decide (1 ≤ c.halfBitTime) && decide (c.halfBitTime < c.bitTime)

end Sys2Proof

namespace Sys2Proof.Machine

/-- `(a + n) mod 2^W` (rule R10). -/
def timerSum (c : Config) (a n : Nat) : Nat := (a + n) % c.timerModulus

/-- `zext_10` of the byte to send (rules R10, R72, R102). -/
def zext10 (b : Byte) : Shift := b.setWidth 10

/-- The framing of SEND step S6 (rule R107): a stop bit above bit 8, then a start bit 0 shifted in. -/
def frameBits (v : Shift) : Shift := (v ||| 0x100#10) <<< 1

/-- The 10-bit frame of a byte: start 0 at bit 0, data bit i at bit i+1, stop 1 at bit 9 (rules R21, R107). -/
def frameOf (b : Byte) : Shift := frameBits (zext10 b)

/-- A sample of 1 ORed into the high end of the incoming shift register (rule R143, D14). -/
def markSample (v : Shift) : Shift := v ||| 0x200#10

/-- The framing validator (rule R144). -/
def validFrame (v : Shift) : Bool := (v &&& 0x201#10) == 0x200#10

/-- The received byte of a valid frame, left in the incoming shift register (rule R143). -/
def frameData (v : Shift) : Shift := (v >>> 1) &&& 0x0FF#10

/-- The byte RECV returns: bits 7:0 of the incoming shift register (rule R112). -/
def resultByte (v : Shift) : Byte := v.setWidth 8

/-- The output mode the transmit branch writes for the bit it reads (rule R142). -/
def outModeOfBit (b : Bool) : OutMode := if b then .set else .reset

/-- SEND is between its receiving check and the end of its arming (rule R132). -/
def Phase.inArmWindow : Phase → Bool
  | .s3 => true
  | .s4 => true
  | .s5 => true
  | .s6 => true
  | .s7 => true
  | .idle => false
  | .s1 => false
  | .s2 => false
  | .s8 => false
  | .r1 => false
  | .r2 => false

/-- The TX line level, derived and never stored (rule R34). -/
def State.txLine (s : State) : LineLevel :=
  match s.txDir with
  | .input => .z
  | .output =>
    match s.txFn with
    | .timer => .level s.out
    | .gpio => .level s.txGpio

end Sys2Proof.Machine
end

