-- ==== Sys2Proof/Machine/Ops.lean ====
section
/-! DEFINITION. The named operations over the state: raising a model fault (the block's one exception mechanism,
60_exceptions.md rule R203; there is no processor exception and no return instruction, rules R215 to R217), the marked
registers (10_state.md rule R37), the timer operations, and fetching words from the two lists of a run. -/

namespace Sys2Proof.Machine

/-- `raise Fault(f)` (rules R11, R38): the fault is recorded, and nothing else changes. -/
def raiseFault (f : Fault) (s : State) : State :=
  { s with faults := if f ∈ s.faults then s.faults else s.faults ++ [f] }

/-- A state with a recorded fault has no further step of any agent (rules R38, R203). -/
def whenLive (s : State) (k : Host.Outcome State Fault Refusal) : Host.Outcome State Fault Refusal :=
  match s.faults with
  | [] => k
  | f :: _ => .fault f

/-- Writing `txsh` sets its written mark (rule R37). -/
def writeTxsh (v : Shift) (s : State) : State := { s with txsh := v, txshWritten := true }

/-- Writing `rxsh` sets its written mark (rule R37). -/
def writeRxsh (v : Shift) (s : State) : State := { s with rxsh := v, rxshWritten := true }

/-- Writing `bitcnt` sets its written mark (rule R37). -/
def writeBitcnt (v : Count) (s : State) : State := { s with bitcnt := v, bitcntWritten := true }

/-- Reading `txsh`, then going on with its value; "a rule that reads an element whose mark is 0 raises
Fault(UNWRITTEN) instead of reading a value" (rule R37; rule R203). -/
def readTxsh (s : State) (k : Shift → State) : State :=
  if s.txshWritten then k s.txsh else raiseFault .unwritten s

/-- Reading `rxsh`, then going on with its value; Fault(UNWRITTEN) instead where its mark is 0 (rules R37, R112,
R203). -/
def readRxsh (s : State) (k : Shift → State) : State :=
  if s.rxshWritten then k s.rxsh else raiseFault .unwritten s

/-- Reading `bitcnt`, then going on with its value; Fault(UNWRITTEN) instead where its mark is 0 (rules R37, R140,
R141, R203). -/
def readBitcnt (s : State) (k : Count → State) : State :=
  if s.bitcntWritten then k s.bitcnt else raiseFault .unwritten s

/-- `ccr <- (a + n) mod 2^W`. Writing `ccr` is not a match (rules R28, R161). -/
def setCompare (a n : Nat) (s : State) : State := { s with ccr := timerSum s.cfg a n }

/-- Every invocation of the compare handler advances `ccr` by one bit time, from its own value (rules R28, R142,
R143). -/
def advanceCompare (s : State) : State := setCompare s.ccr s.cfg.bitTime s

/-- The invocation that ends a transfer stops the timer and clears the compare interrupt enable (rules R27, R29). -/
def stopTransfer (s : State) : State := { s with tmode := .stop, ccie := false }

/-- The level the receive arming writes to the compare output latch: P_RXMODE_OUT, the free value of draw number `k`
when that is `draw` (rule R131, D13). -/
def receiveLevel (m : RxmodeOut) (k : Nat) : Bool :=
  match m with
  | .zero => false
  | .one => true
  | .draw => Config.drawBit k

/-- How many draws have been answered after the receive arming, from `k` before it. -/
def drawsAfterArming (m : RxmodeOut) (k : Nat) : Nat :=
  match m with
  | .zero => k
  | .one => k
  | .draw => k + 1

/-- The compare output latch is written by the receive arming (rule R131, D13). -/
def writeReceiveOut (s : State) : State :=
  { s with
    out := receiveLevel s.cfg.rxmodeOut s.drawCount,
    drawCount := drawsAfterArming s.cfg.rxmodeOut s.drawCount }

/-- The next state of an outcome, where it has one. -/
def nextState? : Host.Outcome State Fault Refusal → Option State
  | .next s => some s
  | .fault _ => none
  | .refused _ => none

/-- The next event word of the schedule, decoded, and the state without it (rules R71, R75). -/
def fetchEvent (s : State) : Except Refusal (Instr × State) :=
  match s.schedule with
  | [] => .error .scheduleEnd
  | w :: rest =>
    match decodeIn .event s.cfg w with
    | .error r => .error (.word r)
    | .ok i => .ok (i, { s with schedule := rest })

/-- The next command word of the host program, decoded, and the state without it (rules R71, R75, R115). -/
def fetchCommand (s : State) : Except Refusal (Instr × State) :=
  match s.program with
  | [] => .error .fgFinished
  | w :: rest =>
    match decodeIn .host s.cfg w with
    | .error r => .error (.word r)
    | .ok i => .ok (i, { s with program := rest })

/-- The operation code is one of the three host commands (rule R71). -/
def isHostWord (w : Word) : Bool :=
  opField w == 0x1#4 || opField w == 0x2#4 || opField w == 0x3#4

/-- Place one word where the next step fetches it: a host command becomes the program's next command, with an FG
event to start it from IDLE (rule R115); every other word becomes the schedule's next event (rule R71). -/
def placeWord (w : Word) (s : State) : State :=
  if isHostWord w then
    { s with fgPhase := .idle, program := w :: s.program, schedule := encode .fg :: s.schedule }
  else { s with schedule := w :: s.schedule }

end Sys2Proof.Machine
end

