-- ==== Sys2Proof/Machine/Flags.lean ====
section
/-! DEFINITION. The flags of the block: the pending flags and what requests an interrupt (60_exceptions.md rules R210,
R211), the compare match and its output unit (43_timer_and_lines.md rules R161, R162), falling-edge detection (rule
R164), the shared interrupt-vector register (10_state.md rule R32). -/

namespace Sys2Proof.Machine

/-- The edge interrupt is requested (rule R210). -/
def edgeRequested (s : State) : Bool := s.cfg.rxEnabled && s.rxIe && s.rxIfg

/-- The compare interrupt is requested (rule R211). -/
def ccRequested (s : State) : Bool := s.ccie && s.ccifg

/-- The conditions of rule R130 on an IRQ_EDGE step, other than that no fault is recorded. -/
def edgeEnabled (s : State) : Bool := s.initialized && s.rxCfg && edgeRequested s

/-- The conditions of rules R140 and R141 on an IRQ_CC step, other than that no fault is recorded. -/
def ccEnabled (s : State) : Bool := s.initialized && ccRequested s

/-- Arming clears a pending compare flag where P_ARM_CLEARS_FLAG = 1 (rules R108, R131, D17). -/
def armClearFlag (s : State) : State :=
  if s.cfg.armClearsFlag then { s with ccifg := false } else s

/-- The output latch after a match in a given output mode (rule R162). -/
def outAfterMatch (m : OutMode) (out : Bool) : Bool :=
  match m with
  | .hold => out
  | .set => true
  | .reset => false

/-- A compare match (rules R161, R162): `ccifg` is set whatever `ccie` is, and the output unit acts. -/
def compareMatch (s : State) : State :=
  { s with ccifg := true, out := outAfterMatch s.outmod s.out }

/-- Falling-edge detection (rules R163, R164): a change from 1 to 0 while the RX pin is configured sets the edge flag,
whatever the edge interrupt enable is. -/
def edgeFlagAfter (s : State) (new : Bool) : Bool :=
  s.rxIfg || (s.rxCfg && s.rxIn && !new)

/-- The end of a frame clears and re-enables the edge interrupt (rules R33, R143). -/
def reenableEdge (s : State) : State := { s with rxIfg := false, rxIe := true }

/-- The two answers of the shared interrupt-vector register (rule R32, D36). -/
inductive IvCode where
  | this
  | other
  deriving DecidableEq, Repr

/-- Reading `IV`: the answer, and the state after the read, which clears `ccifg` when the answer is THIS
(rules R32, R59). -/
def readIv (s : State) : IvCode × State :=
  if ccRequested s then (.this, { s with ccifg := false }) else (.other, s)

end Sys2Proof.Machine
end

