-- ==== Sys2Proof/Machine/HostOps.lean ====
section
/-! DEFINITION. The host commands INIT, SEND and RECV (40_host_operations.md rules R100 to R112): each command's
starting step and each micro-step of SEND (S1 to S8) and of RECV (R1, R2). -/

namespace Sys2Proof.Machine

/-- The RX pin part of INIT, with receive support only (rules R33, R100). -/
def initRxPin (s : State) : State :=
  if s.cfg.rxEnabled then { s with rxCfg := true, rxIfg := false, rxIe := true } else s

/-- INIT's register writes (rule R100). -/
def initRegisters (s : State) : State :=
  let s := initRxPin s
  { s with
    txGpio := true, txDir := .output,
    out := true, outmod := .hold,
    txFn := .timer,
    tmode := .stop,
    ccie := false, ccifg := false,
    initialized := true,
    fgPhase := .idle }

/-- INIT's fault check (rule R100): a transfer is in flight. -/
def initBusy (s : State) : Bool := s.initialized && (s.receiving || s.ccie)

/-- INIT (rule R100). -/
def initCommand (s : State) : State :=
  if initBusy s then raiseFault .initBusy s else initRegisters s

/-- The starting step of SEND (rule R101). -/
def sendCommand (byte : Byte) (s : State) : State :=
  if s.initialized then { s with fgByte := byte, fgPhase := .s1 } else raiseFault .notInitialized s

/-- The starting step of RECV (rule R110). -/
def recvCommand (s : State) : State :=
  if s.initialized then { s with fgPhase := .r1 } else raiseFault .notInitialized s

/-- A host command starts only at IDLE (rules R35, R116). -/
def whenIdle (s : State) (k : Host.Outcome State Fault Refusal) : Host.Outcome State Fault Refusal :=
  if s.fgPhase = .idle then k else .refused .fgBusy

/-- INIT (rule R100). -/
def execInit (s : State) : Host.Outcome State Fault Refusal :=
  whenLive s (whenIdle s (.next (initCommand s)))

/-- SEND (rule R101). -/
def execSend (byte : Byte) (s : State) : Host.Outcome State Fault Refusal :=
  whenLive s (whenIdle s (.next (sendCommand byte s)))

/-- RECV (rule R110), refused without receive support (rule R75). -/
def execRecv (s : State) : Host.Outcome State Fault Refusal :=
  whenLive s (if s.cfg.rxEnabled then whenIdle s (.next (recvCommand s)) else .refused (.word .noRx))

/-- S1, load (rule R102). It also runs while a reception is in flight and `ccie = 1` (rules R102, R115), which rule R61
and 90_conflicts.md C11 say otherwise (DEDUCED, notes/assumptions/16.md). -/
def sendS1 (s : State) : State := { writeTxsh (zext10 s.fgByte) s with fgPhase := .s2 }

/-- S2, the half-duplex check has passed (rule R103). -/
def sendS2 (s : State) : State := { s with fgPhase := .s3 }

/-- S3, idle the output and start the timer (rule R104). -/
def sendS3 (s : State) : State := { s with out := true, outmod := .hold, tmode := .cont, fgPhase := .s4 }

/-- S4, load the bit counter (rule R105). -/
def sendS4 (s : State) : State := { writeBitcnt 10#4 s with fgPhase := .s5 }

/-- S5, schedule the first compare (rule R106). -/
def sendS5 (s : State) : State := { setCompare s.tar s.cfg.bitTime s with fgPhase := .s6 }

/-- S6, frame (rule R107). -/
def sendS6 (s : State) : State :=
  readTxsh s fun v => { writeTxsh (frameBits v) s with fgPhase := .s7 }

/-- S7, arm the channel (rule R108). -/
def sendS7 (s : State) : State :=
  { armClearFlag s with outmod := .set, out := true, ccie := true, fgPhase := .s8 }

/-- S8, the transmission has completed (rule R109). -/
def sendS8 (s : State) : State := { s with fgPhase := .idle }

/-- R1, a byte is waiting (rule R111). -/
def recvR1 (s : State) : State := { s with fgPhase := .r2 }

/-- R2, take the byte (rules R58, R112). -/
def recvR2 (s : State) : State :=
  readRxsh s fun v => { s with fgResult := resultByte v, byteReady := false, fgPhase := .idle }

end Sys2Proof.Machine
end

