-- ==== Sys2Proof/Machine/Foreground.lean ====
section
/-! DEFINITION. FG, the step of the foreground agent (40_host_operations.md rule R115). -/

namespace Sys2Proof.Machine

/-- Perform a host command fetched from the program. An event word never comes here: the fetch refuses it
(rules R71, R75). -/
def runCommand (i : Instr) (s : State) : Host.Outcome State Fault Refusal :=
  match i with
  | .init => execInit s
  | .send byte => execSend byte s
  | .recv => execRecv s
  | .fg => .refused (.word .group)
  | .irqEdge => .refused (.word .group)
  | .irqCc => .refused (.word .group)
  | .tick => .refused (.word .group)
  | .line _ => .refused (.word .group)

/-- At IDLE: start the host program's next command (rule R115). -/
def startNextCommand (s : State) : Host.Outcome State Fault Refusal :=
  match fetchCommand s with
  | .error r => .refused r
  | .ok (i, t) => runCommand i t

/-- A micro-step that waits for a condition: without it FG has no step, the hold of rules R11 and R115. -/
def holdUntil (cond : Bool) (t : State) : Host.Outcome State Fault Refusal :=
  if cond then .next t else .refused .fgHold

/-- The micro-step `fg_phase` names (rule R115, its table row by row). S1 has no condition, as its row says, although
rule R61 and 90_conflicts.md C11 put `ccie = 0` there (DEDUCED, notes/assumptions/16.md). -/
def microStep (s : State) : Host.Outcome State Fault Refusal :=
  match s.fgPhase with
  | .idle => startNextCommand s
  | .s1 => .next (sendS1 s)
  | .s2 => holdUntil (!s.receiving) (sendS2 s)
  | .s3 => .next (sendS3 s)
  | .s4 => .next (sendS4 s)
  | .s5 => .next (sendS5 s)
  | .s6 => .next (sendS6 s)
  | .s7 => .next (sendS7 s)
  | .s8 => holdUntil (!s.ccie) (sendS8 s)
  | .r1 => holdUntil s.byteReady (recvR1 s)
  | .r2 => .next (recvR2 s)

/-- FG (rule R115). -/
def execFg (s : State) : Host.Outcome State Fault Refusal := whenLive s (microStep s)

end Sys2Proof.Machine
end

