-- ==== Sys2Proof/Machine/Interrupts.lean ====
section
/-! DEFINITION. The two interrupt handlers, each one atomic step of the IRQ agent: the edge-detect handler
(41_edge_handler.md) and the timer-compare handler (42_timer_handler.md). -/

namespace Sys2Proof.Machine

/-- The edge handler's arming of the shared timer for a reception (rule R131). -/
def armReceive (s : State) : State :=
  let s := { s with receiving := true, rxIe := false, rxIfg := false, tmode := .cont }
  let s := setCompare s.tar s.cfg.halfBitTime s
  let s := writeReceiveOut { s with outmod := .hold }
  let s := armClearFlag { s with ccie := true }
  writeBitcnt 9#4 (writeRxsh 0#10 s)

/-- The edge handler's body (rules R131, R132). -/
def edgeHandler (s : State) : State :=
  if s.fgPhase.inArmWindow then raiseFault .edgeInArmWindow s else armReceive s

/-- IRQ_EDGE (rule R130); no such word without receive support (rule R75). -/
def execIrqEdge (s : State) : Host.Outcome State Fault Refusal :=
  whenLive s
    (if s.cfg.rxEnabled then
      if edgeEnabled s then .next (edgeHandler s) else .refused .notRequested
     else .refused (.word .noRx))

/-- The transmit branch for a bit still to send (rule R142). -/
def transmitBit (n : Count) (s : State) : State :=
  readTxsh s fun v =>
    writeBitcnt (n - 1#4) (writeTxsh (v >>> 1) { s with outmod := outModeOfBit (v.getLsbD 0) })

/-- The transmit branch, `n` the bit counter read at entry (rule R142). -/
def transmitBranch (n : Count) (s : State) : State :=
  let s := advanceCompare s
  if n = 0#4 then stopTransfer s else transmitBit n s

/-- Sample the RX line: a level of 1 is ORed into `rxsh` (rule R143), then go on. -/
def sampleRx (s : State) (k : State → State) : State :=
  if s.rxIn then readRxsh s fun v => k (writeRxsh (markSample v) s) else k s

/-- The receive branch for one of the 9 shifting samples (rule R143). -/
def receiveBit (n : Count) (s : State) : State :=
  sampleRx s fun s => readRxsh s fun v => writeBitcnt (n - 1#4) (writeRxsh (v >>> 1) s)

/-- Validate the assembled frame: a valid one leaves the byte and sets `byte_ready`, any other is dropped and leaves
the raw value (rules R143, R144, R200). -/
def deliverFrame (s : State) : State :=
  readRxsh s fun v =>
    if validFrame v then { writeRxsh (frameData v) s with byteReady := true } else s

/-- The receive branch that ends the frame: the stop sample, then the shared end of a transfer (rule R143). -/
def receiveEnd (s : State) : State :=
  sampleRx s fun s => deliverFrame (reenableEdge { stopTransfer s with receiving := false })

/-- The receive branch, `n` the bit counter read at entry (rule R143). -/
def receiveBranch (n : Count) (s : State) : State :=
  let s := advanceCompare s
  if n = 0#4 then receiveEnd s else receiveBit n s

/-- The dispatch common to both vectors, after `ccifg` is cleared (rules R140, R141). -/
def ccDispatch (s : State) : State :=
  readBitcnt s fun n =>
    if 10#4 < n then raiseFault .bitcntRange s
    else if s.receiving then receiveBranch n s else transmitBranch n s

/-- Entry through the dedicated vector (rule R140): the flag is cleared on entry. -/
def ccDedicatedEntry (s : State) : State := ccDispatch { s with ccifg := false }

/-- Entry through the shared vector (rule R141): the vector register is read first; OTHER returns at once. -/
def ccSharedEntry (s : State) : State :=
  match readIv s with
  | (.other, s) => s
  | (.this, s) => ccDispatch s

/-- The compare handler (rules R140, R141). -/
def ccHandler (s : State) : State :=
  if s.cfg.ccDedicated then ccDedicatedEntry s else ccSharedEntry s

/-- IRQ_CC (rules R140, R141). -/
def execIrqCc (s : State) : Host.Outcome State Fault Refusal :=
  whenLive s (if ccEnabled s then .next (ccHandler s) else .refused .notRequested)

end Sys2Proof.Machine
end

