-- ==== Sys2Proof/Machine/TimerLines.lean ====
section
/-! DEFINITION. TICK, the step of the timer's clock, and LINE, the environment's change of the RX level
(43_timer_and_lines.md rules R160 to R164). -/

namespace Sys2Proof.Machine

/-- One count of the running timer, with the match when the counter becomes equal to `ccr` (rules R160, R161). -/
def countTick (s : State) : State :=
  let s := { s with tar := timerSum s.cfg s.tar 1 }
  if s.tar = s.ccr then compareMatch s else s

/-- One tick (rule R160): the tick count always advances, the counter only in CONT. -/
def timerTick (s : State) : State :=
  let s := { s with now := s.now + 1 }
  match s.tmode with
  | .stop => s
  | .cont => countTick s

/-- TICK (rule R160), enabled before and after INIT. -/
def execTick (s : State) : Host.Outcome State Fault Refusal := whenLive s (.next (timerTick s))

/-- A new RX level, with falling-edge detection (rules R163, R164). -/
def setLine (v : Bool) (s : State) : State :=
  { s with rxIn := v, rxIfg := edgeFlagAfter s v }

/-- LINE (rule R163); no such word without receive support (rule R75). -/
def execLine (v : Bool) (s : State) : Host.Outcome State Fault Refusal :=
  whenLive s (if s.cfg.rxEnabled then .next (setLine v s) else .refused (.word .noRx))

end Sys2Proof.Machine
end

