-- ==== Sys2Proof/Machine/Dispatch.lean ====
section
/-! DEFINITION. One arm for each operation of spec/opcode_table.json. -/

namespace Sys2Proof.Machine

def exec (i : Instr) (s : State) : Host.Outcome State Fault Refusal :=
  match i with
  | .init => Sys2Proof.Machine.execInit s
  | .send byte => Sys2Proof.Machine.execSend byte s
  | .recv => Sys2Proof.Machine.execRecv s
  | .fg => Sys2Proof.Machine.execFg s
  | .irqEdge => Sys2Proof.Machine.execIrqEdge s
  | .irqCc => Sys2Proof.Machine.execIrqCc s
  | .tick => Sys2Proof.Machine.execTick s
  | .line level => Sys2Proof.Machine.execLine level s

end Sys2Proof.Machine
end

