-- ==== Sys2Proof/Machine/Step.lean ====
section
/-! DEFINITION. One step of the block: the schedule's next event word is fetched, decoded and executed
(30_encoding.md rule R71, 10_state.md rule R20). -/

namespace Sys2Proof.Machine

/-- Fetch and execute the next event of the schedule (rules R71, R75). -/
def runNextEvent (s : State) : Host.Outcome State Fault Refusal :=
  match fetchEvent s with
  | .error r => .refused r
  | .ok (i, t) => exec i t

/-- One step. An illegal configuration is refused before any step (rules R8, R201); a faulted state has none (rule
R38). -/
def step (s : State) : Host.Outcome State Fault Refusal :=
  if s.cfg.legal then whenLive s (runNextEvent s) else .refused .config

/-- The word placed where `step` fetches its next instruction. -/
def State.withFetchWord (s : State) (nbits w : Nat) : State := placeWord (tableWord nbits w) s

end Sys2Proof.Machine
end

