-- ==== Sys2Proof/Safety.lean ====
section
/-! DEFINITION. The terms claims are stated in: an armed, finished and quiescent block, the invariant of the reachable
states, reachability, runs written as lists of operations, and the two timed schedules of 70_reset_and_hazards.md. -/

namespace Sys2Proof.Machine

/-- The block is armed (rule R27, D1). -/
def State.armed (s : State) : Bool := decide (s.tmode = .cont) && s.ccie

/-- A finished run (rule R233). -/
def State.finished (s : State) : Bool :=
  s.faults.isEmpty && decide (s.fgPhase = .idle) && s.program.isEmpty

/-- A quiescent run: finished, no transfer in flight, no interrupt requested (rule R233). -/
def State.quiescent (s : State) : Bool :=
  s.finished && !s.receiving && !s.ccie && !(edgeRequested s) && !(ccRequested s)

/-- The draws of reset stay within the timer's width (rules R9, R42). -/
def ResetDraws.inRange (c : Config) (d : ResetDraws) : Bool :=
  decide (d.tar < c.timerModulus) && decide (d.ccr < c.timerModulus)

/-- A state loaded with a host program and a schedule (rule R71, boot order of rule R232). -/
def State.load (s : State) (program schedule : List Word) : State :=
  { s with program := program, schedule := schedule }

/-- FG is inside SEND with `txsh` written: past S1 (rules R102 to R109). -/
def Phase.afterLoad : Phase → Bool
  | .s2 => true
  | .s3 => true
  | .s4 => true
  | .s5 => true
  | .s6 => true
  | .s7 => true
  | .s8 => true
  | .idle => false
  | .s1 => false
  | .r1 => false
  | .r2 => false

/-- FG is inside SEND with the timer started and not yet armed: past S3, before the end of S7. -/
def Phase.timerStarted : Phase → Bool
  | .s4 => true
  | .s5 => true
  | .s6 => true
  | .s7 => true
  | .idle => false
  | .s1 => false
  | .s2 => false
  | .s3 => false
  | .s8 => false
  | .r1 => false
  | .r2 => false

/-- FG is inside SEND with the bit counter loaded and the channel not yet armed: past S4, before the end of S7. -/
def Phase.counterLoaded : Phase → Bool
  | .s5 => true
  | .s6 => true
  | .s7 => true
  | .idle => false
  | .s1 => false
  | .s2 => false
  | .s3 => false
  | .s4 => false
  | .s8 => false
  | .r1 => false
  | .r2 => false

/-- What every reachable state satisfies, whatever the configuration, the draws, the program and the schedule. -/
structure State.Inv (s : State) : Prop where
  /-- `tar` has W bits (rule R26). -/
  tar_in_range : s.tar < s.cfg.timerModulus
  /-- `ccr` has W bits (rule R28). -/
  ccr_in_range : s.ccr < s.cfg.timerModulus
  /-- The bit counter stays in 0..10 (rule R23). -/
  bitcnt_in_range : s.bitcnt ≤ 10#4
  /-- At most one fault is ever recorded (rule R38). -/
  one_fault : s.faults.length ≤ 1
  /-- The two guard faults are never raised (rule R203). -/
  no_guard_fault : Fault.unwritten ∉ s.faults ∧ Fault.bitcntRange ∉ s.faults
  /-- Before INIT nothing of the protocol has started (rules R36, R42). -/
  before_init : s.initialized = false →
    s.fgPhase = .idle ∧ s.receiving = false ∧ s.byteReady = false ∧ s.rxCfg = false
  /-- INIT leaves the TX pin driven by the compare output for good (rules R34, R100). -/
  tx_pin : s.initialized = true → s.txDir = .output ∧ s.txFn = .timer ∧ s.txGpio = true
  /-- INIT configures the RX pin exactly with receive support (rules R33, R100). -/
  rx_pin : s.initialized = true → s.rxCfg = s.cfg.rxEnabled
  /-- The edge interrupt is off exactly during a reception (rules R33, R210). -/
  edge_enable : s.initialized = true → s.cfg.rxEnabled = true → s.rxIe = !s.receiving
  /-- A reception is armed, has its registers written and excludes SEND's arming window (rules R24, R117, R131). -/
  reception : s.receiving = true →
    s.cfg.rxEnabled = true ∧ s.ccie = true ∧ s.tmode = .cont ∧ s.rxshWritten = true ∧
    s.bitcntWritten = true ∧ s.bitcnt ≤ 9#4 ∧ s.fgPhase.inArmWindow = false
  /-- The compare interrupt is enabled only by a reception or by a SEND waiting at S8 (rules R29, R211). -/
  enabled_by_transfer : s.initialized = true → s.ccie = true → s.receiving = false →
    s.fgPhase = .s8 ∧ s.tmode = .cont ∧ s.bitcntWritten = true
  /-- Outside a transfer and SEND's arming the timer is stopped (rule R226). -/
  stopped_when_idle : s.initialized = true → s.ccie = false → s.fgPhase.timerStarted = false → s.tmode = .stop
  /-- From S3 to S7 the timer runs (rules R104 to R108). -/
  running_while_arming : s.fgPhase.timerStarted = true → s.tmode = .cont
  /-- Past S1 `txsh` is written (rules R37, R102). -/
  txsh_written : s.fgPhase.afterLoad = true → s.txshWritten = true
  /-- Between S1 and S6 `txsh` is the byte, zero-extended (rules R102, R107). -/
  txsh_loaded : s.fgPhase.afterLoad = true → s.fgPhase ≠ .s7 → s.fgPhase ≠ .s8 → s.txsh = zext10 s.fgByte
  /-- At S7 `txsh` is the frame (rule R107). -/
  txsh_framed : s.fgPhase = .s7 → s.txsh = frameOf s.fgByte
  /-- From S5 to S7 the bit counter is 10 (rule R105). -/
  counter_loaded : s.fgPhase.counterLoaded = true → s.bitcntWritten = true ∧ s.bitcnt = 10#4
  /-- During a transmission `txsh` is the frame without the bits already read (rule R142). -/
  transmission : s.fgPhase = .s8 → s.ccie = true → s.receiving = false →
    s.txsh = frameOf s.fgByte >>> (10 - s.bitcnt.toNat)
  /-- A waiting byte was written by a frame (rules R25, R37, R112). -/
  byte_written : s.byteReady = true → s.rxshWritten = true
  /-- Between R1 and R2 the byte is still waiting (rules R25, R111, R112). -/
  byte_waiting : s.fgPhase = .r2 → s.byteReady = true

/-- The states a run reaches from reset, in any legal configuration, with any draws, program and schedule
(rules R20, R71, R232). -/
inductive State.Reachable : State → Prop where
  | start (c : Config) (d : ResetDraws) (program schedule : List Word) :
      c.legal = true → d.inRange c = true →
      State.Reachable ((State.resetWith c d).load program schedule)
  | step (s t : State) : State.Reachable s → Sys2Proof.Machine.step s = .next t → State.Reachable t

/-- Execute operations one after another; none where one of them has no next state. -/
def State.play : List Instr → State → Option State
  | [], s => some s
  | i :: is, s =>
    match nextState? (exec i s) with
    | some t => State.play is t
    | none => none

/-- `n` ticks (rule R77). -/
def ticks (n : Nat) : List Instr := List.replicate n .tick

/-- The first `n` compare matches of a transmission with their handlers: each round ticks to the next match, waits
`lat k` ticks more and runs the handler of match k; `lat 0` is how long ago S5 ran (rules R244, R250). -/
def transmitSchedule (bitTime : Nat) (lat : Nat → Nat) : Nat → List Instr
  | 0 => []
  | n + 1 => transmitSchedule bitTime lat n ++ ticks (bitTime - lat n) ++ ticks (lat (n + 1)) ++ [.irqCc]

/-- The line after match `n` of a transmission: idle up to the first match, then one frame bit a match
(rule R250). -/
def levelAfterMatch (b : Byte) (n : Nat) : Bool :=
  if n ≤ 1 then true else (frameOf b).getLsbD (n - 2)

/-- The rest of a reception after sample `k`: for each further frame bit, the line takes the level of bit `k + 1` at
`lineAt k` ticks after sample `k`, and sample `k + 1` is taken by a handler that runs `lat (k + 1)` ticks after its
match (rules R245, R251). Sample `k` was `lat k` ticks late, so the two are `bitTime + lat (k + 1) - lat k` apart. -/
def receiveSchedule (bitTime : Nat) (lineAt lat : Nat → Nat) : Nat → List Bool → List Instr
  | _, [] => []
  | k, v :: vs =>
    ticks (lineAt k) ++ [.line v] ++ ticks (bitTime + lat (k + 1) - lat k - lineAt k) ++ [.irqCc] ++
      receiveSchedule bitTime lineAt lat (k + 1) vs

/-- The ten levels of the frame of a byte with a given stop level, start bit first (rules R2, R54). -/
def frameLevels (b : Byte) (stop : Bool) : List Bool :=
  [false, b.getLsbD 0, b.getLsbD 1, b.getLsbD 2, b.getLsbD 3, b.getLsbD 4, b.getLsbD 5, b.getLsbD 6, b.getLsbD 7,
    stop]

/-- One invocation of the compare handler with a given RX level (rules R140, R143). -/
def handleWithLevel (s : State) (v : Bool) : State := ccHandler { s with rxIn := v, ccifg := true }

/-- The same state in a configuration that differs only in P_HANDLER_BINDING (rule R6). -/
def State.withBinding (b : HandlerBinding) (s : State) : State :=
  { s with cfg := { s.cfg with handlerBinding := b } }

/-- An outcome with its next state, if any, changed by `f`. -/
def mapNext (f : State → State) : Host.Outcome State Fault Refusal → Host.Outcome State Fault Refusal
  | .next s => .next (f s)
  | .fault r => .fault r
  | .refused r => .refused r

end Sys2Proof.Machine
end

