-- ==== Sys2Proof/Certificates/Slice0/Obligations.lean ====
section
/-! DEFINITION. The statements for the provers. A statement about every state also holds in states no run reaches;
where it could fail only there, `State.Inv` is its premise. -/

open Sys2Proof Sys2Proof.Machine

/-! ### Configuration -/

/-- 00_scope.md rule R7: the bit time is the quotient rounded half up, so it is the nearest number of ticks; the
source's example gives 69. -/
def Obligations.BitTimeRoundsHalfUp : Prop :=
  (∀ c : Config, 0 < c.baud →
    c.bitTime = (2 * c.fClk + c.baud) / (2 * c.baud) ∧
    2 * c.baud * c.bitTime ≤ 2 * c.fClk + c.baud ∧
    2 * c.fClk + c.baud < 2 * c.baud * (c.bitTime + 1)) ∧
  (∀ c : Config, c.fClk = 8000000 → c.baud = 115200 → c.bitTime = 69)

/-- 00_scope.md rule R8, 60_exceptions.md rule R201: exactly these configurations are legal, and any other is refused
before any step. -/
def Obligations.IllegalConfigurationRefused : Prop :=
  (∀ c : Config, c.legal = true ↔
    c.txPinGiven = true ∧ c.channelSupported = true ∧ 0 < c.fClk ∧ 0 < c.baud ∧
    2 ≤ c.bitTime ∧ c.bitTime < 2 ^ c.timerBits ∧ 1 ≤ c.halfBitTime ∧ c.halfBitTime < c.bitTime) ∧
  (∀ s : State, s.cfg.legal = false → step s = .refused .config)

/-- 00_scope.md rule R6: no operation changes the configuration. -/
def Obligations.ConfigurationNeverChanges : Prop :=
  (∀ (i : Instr) (s t : State), exec i s = .next t → t.cfg = s.cfg) ∧
  (∀ s t : State, step s = .next t → t.cfg = s.cfg)

/-- 00_scope.md rule R6, D37: P_HANDLER_BINDING has no effect on any rule: two machines that differ only in it step
alike. -/
def Obligations.HandlerBindingHasNoEffect : Prop :=
  (∀ (b : HandlerBinding) (i : Instr) (s : State),
    exec i (s.withBinding b) = mapNext (State.withBinding b) (exec i s)) ∧
  (∀ (b : HandlerBinding) (s : State), step (s.withBinding b) = mapNext (State.withBinding b) (step s))

/-! ### Encoding -/

/-- Decode and encode agree (30_encoding.md rules R70, R72, R73): the word of an operation that exists in the
configuration decodes to it, with its operand at every value. -/
def Obligations.DecodeEncodeRoundTrip : Prop :=
  ∀ (c : Config) (i : Instr), i.wellFormed c = true → decode c (encode i) = .ok i

/-- Each word has one meaning: a decoded operation exists in the configuration, and the word is its encoding. -/
def Obligations.EncodeDecodeRoundTrip : Prop :=
  ∀ (c : Config) (w : Word) (i : Instr), decode c w = .ok i → encode i = w ∧ i.wellFormed c = true

/-- 30_encoding.md rule R73: a word decodes to a row's operation exactly when match and mask say so and what the row
needs is there, in the row's group and with the operand byte the word holds. -/
def Obligations.DecodeFollowsOpcodeMap : Prop :=
  ∀ (c : Config) (w : Word), ∀ r ∈ opcodeTable,
    (∃ i, decode c w = .ok i ∧ i.mnemonic = r.mnemonic ∧ i.group = r.group ∧ immOf i = immField w) ↔
      (w &&& r.mask = r.pattern ∧ (r.needsRx = true → c.rxEnabled = true))

/-- 30_encoding.md rule R75: a word of the host program or of the schedule is refused exactly when one of the listed
conditions holds, the name reported is one that applies, and a refused word has no step. -/
def Obligations.ReservedWordsRefusedByName : Prop :=
  (∀ (c : Config) (g : Group) (w : Word),
    ((∃ r : WordRefusal, r.applies c g w) ↔ ∃ r, decodeIn g c w = .error r) ∧
    (∀ r, decodeIn g c w = .error r → r.applies c g w)) ∧
  (∀ (s : State) (w : Word) (rest : List Word) (r : WordRefusal),
    s.cfg.legal = true → s.faults = [] → s.schedule = w :: rest → decodeIn .event s.cfg w = .error r →
    step s = .refused (.word r)) ∧
  (∀ (s : State) (w : Word) (rest : List Word) (r : WordRefusal),
    s.faults = [] → s.fgPhase = .idle → s.program = w :: rest → decodeIn .host s.cfg w = .error r →
    exec .fg s = .refused (.word r))

/-- 30_encoding.md rule R78: the worked encodings, and their decoding where there is receive support. -/
def Obligations.WorkedEncodings : Prop :=
  encode .init = 0x1000#16 ∧ encode (.send 0x41#8) = 0x2041#16 ∧ encode (.send 0xFF#8) = 0x20FF#16 ∧
  encode .recv = 0x3000#16 ∧ encode .fg = 0x4000#16 ∧ encode .irqEdge = 0x8000#16 ∧ encode .irqCc = 0x9000#16 ∧
  encode .tick = 0xA000#16 ∧ encode (.line false) = 0xB000#16 ∧ encode (.line true) = 0xB001#16 ∧
  ∀ c : Config, c.rxEnabled = true →
    decode c 0x1000#16 = .ok .init ∧ decode c 0x2041#16 = .ok (.send 0x41#8) ∧
    decode c 0x20FF#16 = .ok (.send 0xFF#8) ∧ decode c 0x3000#16 = .ok .recv ∧ decode c 0x4000#16 = .ok .fg ∧
    decode c 0x8000#16 = .ok .irqEdge ∧ decode c 0x9000#16 = .ok .irqCc ∧ decode c 0xA000#16 = .ok .tick ∧
    decode c 0xB000#16 = .ok (.line false) ∧ decode c 0xB001#16 = .ok (.line true) ∧
    decode c 0x2141#16 = .error .reservedBits ∧ decode c 0xB002#16 = .error .operand

/-- 30_encoding.md rule R77: TICKS n stands for n consecutive TICK words. -/
def Obligations.TicksPseudoInstruction : Prop :=
  ∀ n : Nat, (AsmLine.ticks n).words = List.replicate n 0xA000#16

/-! ### Steps -/

/-- A step runs the decoded instruction (30_encoding.md rule R71): the schedule's next event, or, when that is FG at
IDLE, the host program's next command; what step adds is that the words executed leave their lists. -/
def Obligations.StepRunsDecodedInstruction : Prop :=
  (∀ (s : State) (w : Word) (rest : List Word) (i : Instr),
    s.cfg.legal = true → s.faults = [] → s.schedule = w :: rest → decodeIn .event s.cfg w = .ok i →
    step s = exec i { s with schedule := rest }) ∧
  (∀ (s : State) (w : Word) (events cmds : List Word) (i : Instr),
    s.cfg.legal = true → s.faults = [] → s.schedule = encode .fg :: events → s.fgPhase = .idle →
    s.program = w :: cmds → decodeIn .host s.cfg w = .ok i →
    step s = exec i { s with schedule := events, program := cmds })

/-- The model's interface (notes/assumptions/8.md): a word placed for fetching is what the next step executes, from a
live state in a legal configuration. -/
def Obligations.PlacedWordRunsNext : Prop :=
  ∀ (s : State) (w : Word) (i : Instr), s.cfg.legal = true → s.faults = [] → decode s.cfg w = .ok i →
    (i.group = .event → step (s.withFetchWord 16 w.toNat) = exec i s) ∧
    (i.group = .host → step (s.withFetchWord 16 w.toNat) = exec i { s with fgPhase := .idle })

/-- 10_state.md rule R38: `faults` is empty at reset, a recorded fault is never removed, and a state with a recorded
fault has no further step of any agent. -/
def Obligations.RecordedFaultEndsTheRun : Prop :=
  (∀ (c : Config) (d : ResetDraws), (State.resetWith c d).faults = []) ∧
  (∀ (i : Instr) (s t : State), exec i s = .next t → s.faults ⊆ t.faults) ∧
  (∀ (i : Instr) (s t : State), s.faults ≠ [] → exec i s ≠ .next t) ∧
  (∀ s t : State, s.faults ≠ [] → step s ≠ .next t)

/-! ### Reset and INIT -/

/-- 10_state.md rule R42: the reset column, for every configuration and every draw, and the column after INIT, from
every such reset. -/
def Obligations.ResetAndFirstInitValues : Prop :=
  ∀ (c : Config) (d : ResetDraws) (r : State), r = State.resetWith c d →
    (r.txshWritten = false ∧ r.rxshWritten = false ∧ r.bitcntWritten = false ∧ r.receiving = false ∧
      r.byteReady = false ∧ r.tar = d.tar ∧ r.tmode = d.tmode ∧ r.ccr = d.ccr ∧ r.ccie = d.ccie ∧ r.ccifg = d.ccifg ∧
      r.outmod = d.outmod ∧ r.out = d.out ∧ r.txDir = d.txDir ∧ r.txFn = d.txFn ∧ r.txGpio = d.txGpio ∧
      r.rxCfg = false ∧ r.rxIe = d.rxIe ∧ r.rxIfg = d.rxIfg ∧ r.rxIn = c.rxLineInit ∧ r.fgPhase = .idle ∧
      r.fgByte = d.fgByte ∧ r.fgResult = d.fgResult ∧ r.initialized = false ∧ r.faults = [] ∧ r.now = 0) ∧
    ∃ t, exec .init r = .next t ∧
      t.txshWritten = r.txshWritten ∧ t.txsh = r.txsh ∧ t.rxshWritten = r.rxshWritten ∧ t.rxsh = r.rxsh ∧
      t.bitcntWritten = r.bitcntWritten ∧ t.bitcnt = r.bitcnt ∧ t.receiving = r.receiving ∧
      t.byteReady = r.byteReady ∧ t.tar = r.tar ∧ t.tmode = .stop ∧ t.ccr = r.ccr ∧ t.ccie = false ∧
      t.ccifg = false ∧ t.outmod = .hold ∧ t.out = true ∧ t.txDir = .output ∧ t.txFn = .timer ∧ t.txGpio = true ∧
      (c.rxEnabled = true → t.rxCfg = true ∧ t.rxIe = true ∧ t.rxIfg = false) ∧
      (c.rxEnabled = false → t.rxCfg = false ∧ t.rxIe = r.rxIe ∧ t.rxIfg = r.rxIfg) ∧
      t.rxIn = r.rxIn ∧ t.fgPhase = .idle ∧ t.fgByte = r.fgByte ∧ t.fgResult = r.fgResult ∧
      t.initialized = true ∧ t.faults = r.faults ∧ t.now = r.now

/-- 40_host_operations.md rule R100: INIT, taken at IDLE, raises INIT_BUSY while a transfer is in flight, and
otherwise writes exactly the elements named; everything else is unchanged. -/
def Obligations.InitEffect : Prop :=
  ∀ s : State, s.faults = [] → s.fgPhase = .idle →
    ((s.initialized = true ∧ (s.receiving = true ∨ s.ccie = true)) →
      exec .init s = .next { s with faults := [.initBusy] }) ∧
    (¬(s.initialized = true ∧ (s.receiving = true ∨ s.ccie = true)) →
      exec .init s = .next
        { s with
          txGpio := true, txDir := .output, out := true, outmod := .hold, txFn := .timer, tmode := .stop,
          ccie := false, ccifg := false,
          rxCfg := if s.cfg.rxEnabled then true else s.rxCfg,
          rxIfg := if s.cfg.rxEnabled then false else s.rxIfg,
          rxIe := if s.cfg.rxEnabled then true else s.rxIe,
          initialized := true, fgPhase := .idle })

/-- 70_reset_and_hazards.md rule R231: an INIT run a second time while no transfer is in flight changes nothing. -/
def Obligations.InitIsIdempotent : Prop :=
  ∀ s t : State, s.receiving = false → t.faults = [] → exec .init s = .next t → exec .init t = .next t

/-- 10_state.md rule R36: `initialized` is 0 at reset, 1 after INIT and for good; while it is 0, FG may only take INIT
(any other command records a fault) and the IRQ agent has no step. FG is then at IDLE (`State.Inv`, `before_init`). -/
def Obligations.NoInterruptBeforeInit : Prop :=
  (∀ (c : Config) (d : ResetDraws), (State.resetWith c d).initialized = false) ∧
  (∀ s t : State, exec .init s = .next t → t.faults = [] → t.initialized = true) ∧
  (∀ (i : Instr) (s t : State), exec i s = .next t → s.initialized = true → t.initialized = true) ∧
  (∀ s t : State, s.fgPhase = .idle → s.initialized = false → exec .fg s = .next t → t.faults = [] →
    ∃ rest, s.program = encode .init :: rest) ∧
  (∀ (i : Instr) (s t : State), i.agent = .irq → s.initialized = false → exec i s ≠ .next t)

/-! ### SEND and RECV -/

/-- 40_host_operations.md rule R101: the starting step of SEND. -/
def Obligations.SendStart : Prop :=
  ∀ (b : Byte) (s : State), s.faults = [] → s.fgPhase = .idle →
    (s.initialized = false → exec (.send b) s = .next { s with faults := [.notInitialized] }) ∧
    (s.initialized = true → exec (.send b) s = .next { s with fgByte := b, fgPhase := .s1 })

/-- 40_host_operations.md rule R110: the starting step of RECV; refused without receive support. -/
def Obligations.RecvStart : Prop :=
  ∀ s : State, s.faults = [] →
    (s.cfg.rxEnabled = false → exec .recv s = .refused (.word .noRx)) ∧
    (s.cfg.rxEnabled = true → s.fgPhase = .idle → s.initialized = false →
      exec .recv s = .next { s with faults := [.notInitialized] }) ∧
    (s.cfg.rxEnabled = true → s.fgPhase = .idle → s.initialized = true →
      exec .recv s = .next { s with fgPhase := .r1 })

/-- 40_host_operations.md rule R116: a host command starts only at IDLE, and only a foreground step at IDLE takes one
from the program; handlers, ticks and line changes never do. -/
def Obligations.HostCommandsStartOnlyAtIdle : Prop :=
  (∀ (i : Instr) (s t : State), i.group = .host → exec i s = .next t → s.fgPhase = .idle) ∧
  (∀ (i : Instr) (s t : State), exec i s = .next t → t.program ≠ s.program → i = .fg ∧ s.fgPhase = .idle)

/-- 40_host_operations.md rule R115, row IDLE: FG starts the program's next command, and has no step when none is
left. -/
def Obligations.FgStartsNextCommand : Prop :=
  (∀ (s : State) (i : Instr) (rest : List Word), s.faults = [] → s.fgPhase = .idle →
    i.wellFormedIn s.cfg .host = true → s.program = encode i :: rest →
    exec .fg s = exec i { s with program := rest }) ∧
  (∀ s : State, s.faults = [] → s.fgPhase = .idle → s.program = [] → exec .fg s = .refused .fgFinished)

/-- 40_host_operations.md rule R115: FG has a step exactly in the rows of the table whose condition holds. -/
def Obligations.FgEnabledExactly : Prop :=
  ∀ s : State, (∃ t, exec .fg s = .next t) ↔
    s.faults = [] ∧
    (s.fgPhase = .idle → ∃ i rest, i.wellFormedIn s.cfg .host = true ∧ s.program = encode i :: rest) ∧
    (s.fgPhase = .s2 → s.receiving = false) ∧
    (s.fgPhase = .s8 → s.ccie = false) ∧
    (s.fgPhase = .r1 → s.byteReady = true)

/-- 40_host_operations.md rule R102: SEND step S1 loads the byte. -/
def Obligations.SendS1LoadsByte : Prop :=
  ∀ s : State, s.faults = [] → s.fgPhase = .s1 →
    exec .fg s = .next { s with txsh := s.fgByte.setWidth 10, txshWritten := true, fgPhase := .s2 }

/-- 40_host_operations.md rule R103: SEND step S2 holds while a reception is in flight. -/
def Obligations.SendS2WaitsForReception : Prop :=
  ∀ s : State, s.faults = [] → s.fgPhase = .s2 →
    (s.receiving = false → exec .fg s = .next { s with fgPhase := .s3 }) ∧
    (s.receiving = true → exec .fg s = .refused .fgHold)

/-- 40_host_operations.md rule R104: SEND step S3 idles the output and starts the timer. -/
def Obligations.SendS3StartsTimer : Prop :=
  ∀ s : State, s.faults = [] → s.fgPhase = .s3 →
    exec .fg s = .next { s with out := true, outmod := .hold, tmode := .cont, fgPhase := .s4 }

/-- 40_host_operations.md rule R105: SEND step S4 loads the bit counter with 10. -/
def Obligations.SendS4LoadsCounter : Prop :=
  ∀ s : State, s.faults = [] → s.fgPhase = .s4 →
    exec .fg s = .next { s with bitcnt := 10#4, bitcntWritten := true, fgPhase := .s5 }

/-- 40_host_operations.md rule R106: SEND step S5 schedules the first compare one bit time from now, wrapping at
2^W. -/
def Obligations.SendS5SchedulesCompare : Prop :=
  ∀ s : State, s.faults = [] → s.fgPhase = .s5 →
    exec .fg s = .next { s with ccr := (s.tar + s.cfg.bitTime) % 2 ^ s.cfg.timerBits, fgPhase := .s6 }

/-- 40_host_operations.md rule R107, 10_state.md rule R37: SEND step S6 frames the loaded byte; an unwritten register
raises UNWRITTEN. -/
def Obligations.SendS6Frames : Prop :=
  ∀ s : State, s.faults = [] → s.fgPhase = .s6 →
    (s.txshWritten = true →
      exec .fg s = .next { s with txsh := (s.txsh ||| 0x100#10) <<< 1, fgPhase := .s7 }) ∧
    (s.txshWritten = false → exec .fg s = .next { s with faults := [.unwritten] })

/-- The result of the framing (40_host_operations.md rules R102, R107, 20_memory.md rule R54): the model's frame of a
byte has the start bit 0 at bit 0, data bit i at bit i+1, the stop bit 1 at bit 9; S1 loads the byte of the SEND in
progress, and S6 turns the loaded byte into that frame. -/
def Obligations.FrameLayout : Prop :=
  (∀ b : Byte, (frameOf b).getLsbD 0 = false ∧
    (∀ i : Nat, i < 8 → (frameOf b).getLsbD (i + 1) = b.getLsbD i) ∧ (frameOf b).getLsbD 9 = true) ∧
  (∀ s : State, s.faults = [] → s.fgPhase = .s1 →
    ∃ t, exec .fg s = .next t ∧ t.txsh = zext10 s.fgByte ∧ t.txshWritten = true ∧ t.fgByte = s.fgByte) ∧
  (∀ s : State, s.faults = [] → s.fgPhase = .s6 → s.txshWritten = true → s.txsh = zext10 s.fgByte →
    ∃ t, exec .fg s = .next t ∧ t.txsh = frameOf s.fgByte)

/-- 40_host_operations.md rule R108: SEND step S7 arms the channel; whether a pending flag is lost is
P_ARM_CLEARS_FLAG. -/
def Obligations.SendS7ArmsChannel : Prop :=
  ∀ s : State, s.faults = [] → s.fgPhase = .s7 →
    exec .fg s = .next
      { s with
        outmod := .set, out := true, ccie := true,
        ccifg := if s.cfg.armClearsFlag then false else s.ccifg, fgPhase := .s8 }

/-- 40_host_operations.md rule R109: SEND step S8 holds until the compare interrupt enable is cleared, then SEND
returns. -/
def Obligations.SendS8WaitsForCompletion : Prop :=
  ∀ s : State, s.faults = [] → s.fgPhase = .s8 →
    (s.ccie = false → exec .fg s = .next { s with fgPhase := .idle }) ∧
    (s.ccie = true → exec .fg s = .refused .fgHold)

/-- 40_host_operations.md rule R111: RECV step R1 holds until a validated byte is available. -/
def Obligations.RecvR1WaitsForByte : Prop :=
  ∀ s : State, s.faults = [] → s.fgPhase = .r1 →
    (s.byteReady = true → exec .fg s = .next { s with fgPhase := .r2 }) ∧
    (s.byteReady = false → exec .fg s = .refused .fgHold)

/-- 40_host_operations.md rule R112, 20_memory.md rule R58: RECV step R2 returns bits 7:0 and clears `byte_ready` in
one step. -/
def Obligations.RecvR2TakesByte : Prop :=
  ∀ s : State, s.faults = [] → s.fgPhase = .r2 →
    (s.rxshWritten = true →
      exec .fg s = .next
        { s with fgResult := s.rxsh.extractLsb' 0 8, byteReady := false, fgPhase := .idle }) ∧
    (s.rxshWritten = false → exec .fg s = .next { s with faults := [.unwritten] })

/-- 40_host_operations.md rule R117: while a reception is in flight, a foreground step of a SEND in progress changes
none of the shared timer's elements. -/
def Obligations.SendHeldDuringReception : Prop :=
  ∀ s t : State, s.Inv → s.receiving = true → s.fgPhase ≠ .idle → s.fgPhase ≠ .r1 → s.fgPhase ≠ .r2 →
    exec .fg s = .next t →
    t.out = s.out ∧ t.outmod = s.outmod ∧ t.tmode = s.tmode ∧ t.bitcnt = s.bitcnt ∧ t.ccr = s.ccr ∧ t.ccie = s.ccie

/-! ### The edge handler -/

/-- 41_edge_handler.md rule R130: IRQ_EDGE has a step exactly when all the conditions hold, and it performs the
handler's body. -/
def Obligations.EdgeHandlerEnabledExactly : Prop :=
  ∀ s : State,
    ((∃ t, exec .irqEdge s = .next t) ↔
      s.faults = [] ∧ s.initialized = true ∧ s.cfg.rxEnabled = true ∧ s.rxCfg = true ∧ s.rxIe = true ∧
      s.rxIfg = true) ∧
    (∀ t, exec .irqEdge s = .next t → t = edgeHandler s)

/-- 41_edge_handler.md rules R131, R132: the body of the edge handler: a fault in SEND's arming window, else exactly
these writes. For P_RXMODE_OUT = DRAW the form of the draw, `Config.drawBit` of `drawCount` and the count advanced by
one, is the model's choice (DESIGN CHOICE, notes/assumptions/4.md), not the spec's; its value is free. -/
def Obligations.EdgeHandlerEffect : Prop :=
  ∀ s : State, s.faults = [] → s.initialized = true → s.cfg.rxEnabled = true → s.rxCfg = true → s.rxIe = true →
    s.rxIfg = true →
    (s.fgPhase ∈ [Phase.s3, .s4, .s5, .s6, .s7] →
      exec .irqEdge s = .next { s with faults := [.edgeInArmWindow] }) ∧
    (s.fgPhase ∉ [Phase.s3, .s4, .s5, .s6, .s7] →
      exec .irqEdge s = .next
        { s with
          receiving := true, rxIe := false, rxIfg := false, tmode := .cont,
          ccr := (s.tar + s.cfg.halfBitTime) % 2 ^ s.cfg.timerBits,
          outmod := .hold,
          out := match s.cfg.rxmodeOut with
            | .zero => false
            | .one => true
            | .draw => Config.drawBit s.drawCount,
          drawCount := match s.cfg.rxmodeOut with
            | .zero => s.drawCount
            | .one => s.drawCount
            | .draw => s.drawCount + 1,
          ccie := true, ccifg := if s.cfg.armClearsFlag then false else s.ccifg,
          rxsh := 0#10, rxshWritten := true, bitcnt := 9#4, bitcntWritten := true })

/-- 60_exceptions.md rule R213: when both interrupts are requested, either handler may be taken first. -/
def Obligations.EitherHandlerFirst : Prop :=
  ∀ s : State, s.faults = [] → s.initialized = true → s.rxCfg = true → edgeRequested s = true →
    ccRequested s = true → (∃ t, exec .irqEdge s = .next t) ∧ (∃ t, exec .irqCc s = .next t)

/-! ### The compare handler -/

/-- 42_timer_handler.md rules R140, R141: entry to the compare handler through either vector: when it has a step, the
two guard faults, and the dispatch, all after `ccifg` is cleared; a shared-vector entry that reads OTHER returns with
no other effect. -/
def Obligations.CompareHandlerEntry : Prop :=
  (∀ s : State, (∃ t, exec .irqCc s = .next t) ↔
    s.faults = [] ∧ s.initialized = true ∧ s.ccie = true ∧ s.ccifg = true) ∧
  (∀ s : State, s.faults = [] → s.initialized = true → s.ccie = true → s.ccifg = true →
    (s.bitcntWritten = false →
      exec .irqCc s = .next { s with ccifg := false, faults := [.unwritten] }) ∧
    (s.bitcntWritten = true → 10#4 < s.bitcnt →
      exec .irqCc s = .next { s with ccifg := false, faults := [.bitcntRange] }) ∧
    (s.bitcntWritten = true → s.bitcnt ≤ 10#4 → s.receiving = false →
      exec .irqCc s = .next (transmitBranch s.bitcnt { s with ccifg := false })) ∧
    (s.bitcntWritten = true → s.bitcnt ≤ 10#4 → s.receiving = true →
      exec .irqCc s = .next (receiveBranch s.bitcnt { s with ccifg := false }))) ∧
  (∀ s : State, ¬(s.ccie = true ∧ s.ccifg = true) → ccSharedEntry s = s)

/-- 42_timer_handler.md rule R142: the transmit branch; a `txsh` never written records UNWRITTEN instead (10_state.md
rule R37). -/
def Obligations.TransmitBranchEffect : Prop :=
  ∀ s : State, s.faults = [] → s.initialized = true → s.ccie = true → s.ccifg = true → s.bitcntWritten = true →
    s.bitcnt ≤ 10#4 → s.receiving = false →
    (s.bitcnt = 0#4 →
      exec .irqCc s = .next
        { s with
          ccifg := false, ccr := (s.ccr + s.cfg.bitTime) % 2 ^ s.cfg.timerBits, tmode := .stop, ccie := false }) ∧
    (s.bitcnt ≠ 0#4 → s.txshWritten = true →
      exec .irqCc s = .next
        { s with
          ccifg := false, ccr := (s.ccr + s.cfg.bitTime) % 2 ^ s.cfg.timerBits,
          outmod := if s.txsh.getLsbD 0 then .set else .reset,
          txsh := s.txsh >>> 1, bitcnt := s.bitcnt - 1#4 }) ∧
    (s.bitcnt ≠ 0#4 → s.txshWritten = false → ∃ t, exec .irqCc s = .next t ∧ t.faults = [.unwritten])

/-- 42_timer_handler.md rule R143 with the validator of rule R144: the receive branch; an `rxsh` never written records
UNWRITTEN instead (10_state.md rule R37). -/
def Obligations.ReceiveBranchEffect : Prop :=
  ∀ s : State, s.faults = [] → s.initialized = true → s.ccie = true → s.ccifg = true → s.bitcntWritten = true →
    s.bitcnt ≤ 10#4 → s.receiving = true →
    ∀ v : Shift, v = (if s.rxIn then s.rxsh ||| 0x200#10 else s.rxsh) →
    (s.rxshWritten = true → s.bitcnt ≠ 0#4 →
      exec .irqCc s = .next
        { s with
          ccifg := false, ccr := (s.ccr + s.cfg.bitTime) % 2 ^ s.cfg.timerBits,
          rxsh := v >>> 1, bitcnt := s.bitcnt - 1#4 }) ∧
    (s.rxshWritten = true → s.bitcnt = 0#4 → v &&& 0x201#10 = 0x200#10 →
      exec .irqCc s = .next
        { s with
          ccifg := false, ccr := (s.ccr + s.cfg.bitTime) % 2 ^ s.cfg.timerBits, tmode := .stop, ccie := false,
          receiving := false, rxIfg := false, rxIe := true,
          rxsh := (v >>> 1) &&& 0x0FF#10, byteReady := true }) ∧
    (s.rxshWritten = true → s.bitcnt = 0#4 → v &&& 0x201#10 ≠ 0x200#10 →
      exec .irqCc s = .next
        { s with
          ccifg := false, ccr := (s.ccr + s.cfg.bitTime) % 2 ^ s.cfg.timerBits, tmode := .stop, ccie := false,
          receiving := false, rxIfg := false, rxIe := true, rxsh := v }) ∧
    (s.rxshWritten = false → ∃ t, exec .irqCc s = .next t ∧ t.faults = [.unwritten])

/-- 42_timer_handler.md rule R144: the validator is the test of 0x201 against 0x200, so a frame is valid exactly when
bit 0, the start sample, is 0 and bit 9, the stop sample, is 1. -/
def Obligations.ValidatorTestsStartAndStop : Prop :=
  ∀ v : Shift, (validFrame v = true ↔ v &&& 0x201#10 = 0x200#10) ∧
    (validFrame v = true ↔ v.getLsbD 0 = false ∧ v.getLsbD 9 = true)

/-- 42_timer_handler.md rule R145: a transmission takes 10 invocations to count to 0 and stops the timer in the 11th;
a reception takes 9 and stops it in the 10th; whatever the RX levels are. -/
def Obligations.InvocationCounts : Prop :=
  (∀ (s : State) (levels : List Bool), s.ccie = true → s.receiving = false → s.txshWritten = true →
    s.bitcntWritten = true → s.bitcnt = 10#4 → s.tmode = .cont →
    (levels.length ≤ 10 →
      (levels.foldl handleWithLevel s).bitcnt.toNat = 10 - levels.length ∧
      (levels.foldl handleWithLevel s).ccie = true ∧ (levels.foldl handleWithLevel s).tmode = .cont) ∧
    (levels.length = 11 →
      (levels.foldl handleWithLevel s).bitcnt = 0#4 ∧
      (levels.foldl handleWithLevel s).ccie = false ∧ (levels.foldl handleWithLevel s).tmode = .stop)) ∧
  (∀ (s : State) (levels : List Bool), s.ccie = true → s.receiving = true → s.rxshWritten = true →
    s.bitcntWritten = true → s.bitcnt = 9#4 → s.tmode = .cont →
    (levels.length ≤ 9 →
      (levels.foldl handleWithLevel s).bitcnt.toNat = 9 - levels.length ∧
      (levels.foldl handleWithLevel s).ccie = true ∧ (levels.foldl handleWithLevel s).tmode = .cont ∧
      (levels.foldl handleWithLevel s).receiving = true) ∧
    (levels.length = 10 →
      (levels.foldl handleWithLevel s).bitcnt = 0#4 ∧
      (levels.foldl handleWithLevel s).ccie = false ∧ (levels.foldl handleWithLevel s).tmode = .stop ∧
      (levels.foldl handleWithLevel s).receiving = false))

/-- 42_timer_handler.md rule R146: for every byte, ten samples of its frame leave the byte with `byte_ready` set; with
a stop sample of 0, or a start sample of 1, the frame is rejected and `byte_ready` keeps its value. -/
def Obligations.FrameRoundTrip : Prop :=
  ∀ (s : State) (b : Byte), s.ccie = true → s.receiving = true → s.rxshWritten = true → s.bitcntWritten = true →
    s.bitcnt = 9#4 → s.rxsh = 0#10 →
    (((frameLevels b true).foldl handleWithLevel s).rxsh = b.setWidth 10 ∧
      ((frameLevels b true).foldl handleWithLevel s).byteReady = true) ∧
    ((frameLevels b false).foldl handleWithLevel s).byteReady = s.byteReady ∧
    (∀ stop : Bool,
      ((true :: (frameLevels b stop).tail).foldl handleWithLevel s).byteReady = s.byteReady)

/-! ### Timer and lines -/

/-- 43_timer_and_lines.md rules R160, R162: one tick, with the match of rule R161 in the tick at which the counter
becomes equal to the compare register. -/
def Obligations.TickEffect : Prop :=
  ∀ s : State, s.faults = [] →
    (s.tmode = .stop → exec .tick s = .next { s with now := s.now + 1 }) ∧
    (s.tmode = .cont → (s.tar + 1) % 2 ^ s.cfg.timerBits ≠ s.ccr →
      exec .tick s = .next { s with now := s.now + 1, tar := (s.tar + 1) % 2 ^ s.cfg.timerBits }) ∧
    (s.tmode = .cont → (s.tar + 1) % 2 ^ s.cfg.timerBits = s.ccr →
      exec .tick s = .next
        { s with
          now := s.now + 1, tar := (s.tar + 1) % 2 ^ s.cfg.timerBits, ccifg := true,
          out := match s.outmod with
            | .hold => s.out
            | .set => true
            | .reset => false })

/-- 43_timer_and_lines.md rule R161: the compare flag is set by a match and by nothing else, whatever `ccie` is; in
particular writing `ccr` sets nothing. -/
def Obligations.FlagSetOnlyByMatch : Prop :=
  ∀ (i : Instr) (s t : State), exec i s = .next t → s.ccifg = false → t.ccifg = true →
    i = .tick ∧ s.tmode = .cont ∧ t.tar = s.ccr ∧ t.ccr = s.ccr

/-- 43_timer_and_lines.md rules R160, R161: a running timer whose compare register is `d` counts ahead matches at the
`d`-th tick and at no earlier one, wrapping where it must. -/
def Obligations.NextMatchAfterExactly : Prop :=
  ∀ (s : State) (d n : Nat), s.faults = [] → s.tmode = .cont → s.tar < s.cfg.timerModulus → 1 ≤ d →
    d ≤ s.cfg.timerModulus → s.ccr = timerSum s.cfg s.tar d →
    (n < d → State.play (ticks n) s = some { s with now := s.now + n, tar := timerSum s.cfg s.tar n }) ∧
    (n = d → State.play (ticks n) s =
      some (compareMatch { s with now := s.now + n, tar := timerSum s.cfg s.tar n }))

/-- 43_timer_and_lines.md rules R163, R164: a line change sets the level, and a falling edge while the pin is
configured sets the edge flag, whatever the enable is. -/
def Obligations.LineEffect : Prop :=
  ∀ (s : State) (v : Bool), s.faults = [] →
    (s.cfg.rxEnabled = true →
      exec (.line v) s = .next
        { s with
          rxIn := v,
          rxIfg := if s.rxCfg = true ∧ s.rxIn = true ∧ v = false then true else s.rxIfg }) ∧
    (s.cfg.rxEnabled = false → exec (.line v) s = .refused (.word .noRx))

/-- 10_state.md rules R26, R39: only a tick writes the timer counter and the tick count, and every tick advances the
tick count by one. -/
def Obligations.OnlyTicksMoveTime : Prop :=
  ∀ (i : Instr) (s t : State), exec i s = .next t →
    (i ≠ .tick → t.tar = s.tar ∧ t.now = s.now) ∧ (i = .tick → t.now = s.now + 1)

/-- 10_state.md rule R39: no rule reads the tick count: started from another count, every operation does the same. -/
def Obligations.TickCountIsNeverRead : Prop :=
  ∀ (i : Instr) (s : State) (n : Nat),
    exec i { s with now := n } = mapNext (fun t => { t with now := n + (t.now - s.now) }) (exec i s)

/-- 10_state.md rule R34: the TX line level, and only INIT writes the pin fields it is derived from. -/
def Obligations.TxLineAndPinWriters : Prop :=
  (∀ s : State,
    (s.txDir = .input → s.txLine = .z) ∧
    (s.txDir = .output → s.txFn = .timer → s.txLine = .level s.out) ∧
    (s.txDir = .output → s.txFn = .gpio → s.txLine = .level s.txGpio)) ∧
  (∀ (i : Instr) (s t : State), exec i s = .next t →
    t.txDir = s.txDir ∧ t.txFn = s.txFn ∧ t.txGpio = s.txGpio ∨
    i = .init ∨ (i = .fg ∧ s.fgPhase = .idle ∧ ∃ rest, s.program = encode .init :: rest))

/-! ### Whole-machine rules -/

/-- 60_exceptions.md rule R215: neither handler changes the foreground's state. -/
def Obligations.HandlersKeepForeground : Prop :=
  ∀ (i : Instr) (s t : State), i.agent = .irq → exec i s = .next t →
    t.fgPhase = s.fgPhase ∧ t.fgByte = s.fgByte ∧ t.fgResult = s.fgResult ∧ t.program = s.program

/-- 10_state.md rules R24, R25: what starts and ends `receiving`, and what sets and clears `byte_ready`. -/
def Obligations.TransferFlagWriters : Prop :=
  ∀ (i : Instr) (s t : State), exec i s = .next t →
    (s.receiving = false → t.receiving = true → i = .irqEdge) ∧
    (s.receiving = true → t.receiving = false → i = .irqCc ∧ s.bitcnt = 0#4) ∧
    (s.byteReady = false → t.byteReady = true → i = .irqCc ∧ s.receiving = true ∧ s.bitcnt = 0#4) ∧
    (s.byteReady = true → t.byteReady = false → i = .fg ∧ s.fgPhase = .r2)

/-- 60_exceptions.md rules R210, R211: what enables and disables the two interrupts. -/
def Obligations.InterruptEnableWriters : Prop :=
  ∀ (i : Instr) (s t : State), exec i s = .next t →
    (t.rxIe ≠ s.rxIe →
      i = .irqEdge ∨ (i = .irqCc ∧ s.receiving = true ∧ s.bitcnt = 0#4) ∨ i = .init ∨
      (i = .fg ∧ s.fgPhase = .idle ∧ ∃ rest, s.program = encode .init :: rest)) ∧
    (s.ccie = false → t.ccie = true → i = .irqEdge ∨ (i = .fg ∧ s.fgPhase = .s7)) ∧
    (s.ccie = true → t.ccie = false →
      (i = .irqCc ∧ s.bitcnt = 0#4) ∨ i = .init ∨
      (i = .fg ∧ s.fgPhase = .idle ∧ ∃ rest, s.program = encode .init :: rest))

/-- 70_reset_and_hazards.md rule R233: from a quiescent state only ticks and line changes can step. -/
def Obligations.QuiescentOnlyTicksAndLines : Prop :=
  ∀ s t : State, s.quiescent = true → step s = .next t →
    ∃ i rest, s.schedule = encode i :: rest ∧ (i = .tick ∨ ∃ v, i = .line v)

/-! ### The invariant and the unreachable faults -/

/-- The invariant holds at reset, for every legal configuration, draws in range, program and schedule; in particular at
`State.reset`. -/
def Obligations.InvariantAtReset : Prop :=
  (∀ (c : Config) (d : ResetDraws) (program schedule : List Word), c.legal = true → d.inRange c = true →
    ((State.resetWith c d).load program schedule).Inv) ∧
  State.reset.Inv

/-- Every step keeps the invariant: the registers stay in range, the written marks precede every read, the pins stay
configured, a reception excludes SEND's arming, a transmission's shift register is the frame without the bits sent. -/
def Obligations.StepKeepsInvariant : Prop :=
  ∀ s t : State, s.Inv → step s = .next t → t.Inv

/-- 60_exceptions.md rule R203, 10_state.md rule R37: in no run from reset, whatever the configuration, the draws, the
program and the schedule, is UNWRITTEN or BITCNT_RANGE raised; and at most one fault is ever recorded. -/
def Obligations.GuardFaultsUnreachable : Prop :=
  ∀ s : State, s.Reachable →
    Fault.unwritten ∉ s.faults ∧ Fault.bitcntRange ∉ s.faults ∧ s.faults.length ≤ 1

/-- 10_state.md rules R27, R34, 60_exceptions.md rule R226, 20_memory.md rule R61: in every reachable state after INIT
the TX line is the compare output, outside a transfer and SEND's arming the timer is stopped, and at SEND's steps S3 to
S7, where FG writes the timer, `bitcnt`, `ccr` and the frame, the compare interrupt is disabled and no reception is in
flight. (S1 and S2 are left out: notes/assumptions/16.md.) -/
def Obligations.ReachableLineAndPower : Prop :=
  ∀ s : State, s.Reachable → s.initialized = true →
    s.txLine = .level s.out ∧
    (s.ccie = true → s.armed = true) ∧
    (s.ccie = false → s.fgPhase ∉ [Phase.s4, .s5, .s6, .s7] → s.tmode = .stop) ∧
    (s.fgPhase ∈ [Phase.s3, .s4, .s5, .s6, .s7] → s.ccie = false ∧ s.receiving = false)

/-! ### The two frames on the wire -/

/-- 70_reset_and_hazards.md rule R250: the transmit waveform. From an armed transmission whose S5 ran `lat 0` ticks ago,
with every handler `lat k` ticks late and less than a bit time, the line after match n is the frame's bit n-2 (idle up to
the first match), at counter and tick `n` bit times after S5, and the timer stops in the 11th handler. -/
def Obligations.TransmitWaveform : Prop :=
  ∀ (s : State) (b : Byte) (lat : Nat → Nat) (n : Nat),
    s.cfg.legal = true → s.faults = [] → s.initialized = true → s.receiving = false → s.tmode = .cont →
    s.ccie = true → s.ccifg = false → s.outmod = .set → s.out = true →
    s.txsh = frameOf b → s.txshWritten = true → s.bitcnt = 10#4 → s.bitcntWritten = true →
    s.tar < s.cfg.timerModulus → (∀ k, lat k < s.cfg.bitTime) →
    s.ccr = timerSum s.cfg s.tar (s.cfg.bitTime - lat 0) → n ≤ 11 →
    ∃ t, State.play (transmitSchedule s.cfg.bitTime lat n) s = some t ∧
      t.out = levelAfterMatch b n ∧
      t.tar = timerSum s.cfg s.tar (n * s.cfg.bitTime + lat n - lat 0) ∧
      t.now = s.now + (n * s.cfg.bitTime + lat n - lat 0) ∧
      (n < 11 → t.tmode = .cont ∧ t.ccie = true) ∧
      (n = 11 → t.tmode = .stop ∧ t.ccie = false) ∧
      t.fgPhase = s.fgPhase ∧ t.faults = []

/-- 70_reset_and_hazards.md rules R245, R251, 42_timer_handler.md rule R146: the receive sampling schedule. From the
state the edge handler leaves, with the handler of sample k run `lat k` ticks late and less than a bit time, and each
line change anywhere between the sample before it and its own, the frame of every byte with stop bit 1 delivers the byte
at the tenth sample, H + 9T + `lat 9` ticks later; with stop bit 0 it is dropped. -/
def Obligations.ReceiveSchedule : Prop :=
  ∀ (s : State) (b : Byte) (stop : Bool) (lineAt lat : Nat → Nat),
    s.cfg.legal = true → s.cfg.rxEnabled = true → s.faults = [] → s.initialized = true → s.receiving = true →
    s.tmode = .cont → s.ccie = true → s.ccifg = false → s.rxsh = 0#10 → s.rxshWritten = true →
    s.bitcnt = 9#4 → s.bitcntWritten = true → s.tar < s.cfg.timerModulus →
    s.ccr = timerSum s.cfg s.tar s.cfg.halfBitTime → s.rxIn = false →
    (∀ k, lat k < s.cfg.bitTime) → (∀ k, lineAt k + lat k ≤ s.cfg.bitTime + lat (k + 1)) →
    ∃ t, State.play
        (ticks (s.cfg.halfBitTime + lat 0) ++ [.irqCc] ++
          receiveSchedule s.cfg.bitTime lineAt lat 0 (frameLevels b stop).tail) s = some t ∧
      t.now = s.now + s.cfg.halfBitTime + 9 * s.cfg.bitTime + lat 9 ∧
      t.tar = timerSum s.cfg s.tar (s.cfg.halfBitTime + 9 * s.cfg.bitTime + lat 9) ∧
      t.tmode = .stop ∧ t.ccie = false ∧ t.receiving = false ∧ t.rxIe = true ∧ t.rxIfg = false ∧
      (stop = true → t.rxsh = b.setWidth 10 ∧ t.byteReady = true) ∧
      (stop = false → t.rxsh = (b.setWidth 10 : Shift) <<< 1 ∧ t.byteReady = s.byteReady) ∧
      t.fgPhase = s.fgPhase ∧ t.faults = []
end

