-- ==== Sys2Proof/Laws/State.lean ====
section
/-! SUPPORT. For each named update of the state, one lemma for each field, so that no later proof unfolds a record
update. -/

namespace Sys2Proof.Machine

@[simp] theorem raiseFault_cfg (f : Fault) (s : State) : (raiseFault f s).cfg = s.cfg := rfl
@[simp] theorem raiseFault_txsh (f : Fault) (s : State) : (raiseFault f s).txsh = s.txsh := rfl
@[simp] theorem raiseFault_txshWritten (f : Fault) (s : State) : (raiseFault f s).txshWritten = s.txshWritten := rfl
@[simp] theorem raiseFault_rxsh (f : Fault) (s : State) : (raiseFault f s).rxsh = s.rxsh := rfl
@[simp] theorem raiseFault_rxshWritten (f : Fault) (s : State) : (raiseFault f s).rxshWritten = s.rxshWritten := rfl
@[simp] theorem raiseFault_bitcnt (f : Fault) (s : State) : (raiseFault f s).bitcnt = s.bitcnt := rfl
@[simp] theorem raiseFault_bitcntWritten (f : Fault) (s : State) : (raiseFault f s).bitcntWritten = s.bitcntWritten := rfl
@[simp] theorem raiseFault_receiving (f : Fault) (s : State) : (raiseFault f s).receiving = s.receiving := rfl
@[simp] theorem raiseFault_byteReady (f : Fault) (s : State) : (raiseFault f s).byteReady = s.byteReady := rfl
@[simp] theorem raiseFault_tar (f : Fault) (s : State) : (raiseFault f s).tar = s.tar := rfl
@[simp] theorem raiseFault_tmode (f : Fault) (s : State) : (raiseFault f s).tmode = s.tmode := rfl
@[simp] theorem raiseFault_ccr (f : Fault) (s : State) : (raiseFault f s).ccr = s.ccr := rfl
@[simp] theorem raiseFault_ccie (f : Fault) (s : State) : (raiseFault f s).ccie = s.ccie := rfl
@[simp] theorem raiseFault_ccifg (f : Fault) (s : State) : (raiseFault f s).ccifg = s.ccifg := rfl
@[simp] theorem raiseFault_outmod (f : Fault) (s : State) : (raiseFault f s).outmod = s.outmod := rfl
@[simp] theorem raiseFault_out (f : Fault) (s : State) : (raiseFault f s).out = s.out := rfl
@[simp] theorem raiseFault_rxIn (f : Fault) (s : State) : (raiseFault f s).rxIn = s.rxIn := rfl
@[simp] theorem raiseFault_rxCfg (f : Fault) (s : State) : (raiseFault f s).rxCfg = s.rxCfg := rfl
@[simp] theorem raiseFault_rxIe (f : Fault) (s : State) : (raiseFault f s).rxIe = s.rxIe := rfl
@[simp] theorem raiseFault_rxIfg (f : Fault) (s : State) : (raiseFault f s).rxIfg = s.rxIfg := rfl
@[simp] theorem raiseFault_txDir (f : Fault) (s : State) : (raiseFault f s).txDir = s.txDir := rfl
@[simp] theorem raiseFault_txFn (f : Fault) (s : State) : (raiseFault f s).txFn = s.txFn := rfl
@[simp] theorem raiseFault_txGpio (f : Fault) (s : State) : (raiseFault f s).txGpio = s.txGpio := rfl
@[simp] theorem raiseFault_fgPhase (f : Fault) (s : State) : (raiseFault f s).fgPhase = s.fgPhase := rfl
@[simp] theorem raiseFault_fgByte (f : Fault) (s : State) : (raiseFault f s).fgByte = s.fgByte := rfl
@[simp] theorem raiseFault_fgResult (f : Fault) (s : State) : (raiseFault f s).fgResult = s.fgResult := rfl
@[simp] theorem raiseFault_initialized (f : Fault) (s : State) : (raiseFault f s).initialized = s.initialized := rfl
@[simp] theorem raiseFault_faults (f : Fault) (s : State) : (raiseFault f s).faults = if f ∈ s.faults then s.faults else s.faults ++ [f] := rfl
@[simp] theorem raiseFault_now (f : Fault) (s : State) : (raiseFault f s).now = s.now := rfl
@[simp] theorem raiseFault_program (f : Fault) (s : State) : (raiseFault f s).program = s.program := rfl
@[simp] theorem raiseFault_schedule (f : Fault) (s : State) : (raiseFault f s).schedule = s.schedule := rfl
@[simp] theorem raiseFault_drawCount (f : Fault) (s : State) : (raiseFault f s).drawCount = s.drawCount := rfl

@[simp] theorem writeTxsh_cfg (v : Shift) (s : State) : (writeTxsh v s).cfg = s.cfg := rfl
@[simp] theorem writeTxsh_txsh (v : Shift) (s : State) : (writeTxsh v s).txsh = v := rfl
@[simp] theorem writeTxsh_txshWritten (v : Shift) (s : State) : (writeTxsh v s).txshWritten = true := rfl
@[simp] theorem writeTxsh_rxsh (v : Shift) (s : State) : (writeTxsh v s).rxsh = s.rxsh := rfl
@[simp] theorem writeTxsh_rxshWritten (v : Shift) (s : State) : (writeTxsh v s).rxshWritten = s.rxshWritten := rfl
@[simp] theorem writeTxsh_bitcnt (v : Shift) (s : State) : (writeTxsh v s).bitcnt = s.bitcnt := rfl
@[simp] theorem writeTxsh_bitcntWritten (v : Shift) (s : State) : (writeTxsh v s).bitcntWritten = s.bitcntWritten := rfl
@[simp] theorem writeTxsh_receiving (v : Shift) (s : State) : (writeTxsh v s).receiving = s.receiving := rfl
@[simp] theorem writeTxsh_byteReady (v : Shift) (s : State) : (writeTxsh v s).byteReady = s.byteReady := rfl
@[simp] theorem writeTxsh_tar (v : Shift) (s : State) : (writeTxsh v s).tar = s.tar := rfl
@[simp] theorem writeTxsh_tmode (v : Shift) (s : State) : (writeTxsh v s).tmode = s.tmode := rfl
@[simp] theorem writeTxsh_ccr (v : Shift) (s : State) : (writeTxsh v s).ccr = s.ccr := rfl
@[simp] theorem writeTxsh_ccie (v : Shift) (s : State) : (writeTxsh v s).ccie = s.ccie := rfl
@[simp] theorem writeTxsh_ccifg (v : Shift) (s : State) : (writeTxsh v s).ccifg = s.ccifg := rfl
@[simp] theorem writeTxsh_outmod (v : Shift) (s : State) : (writeTxsh v s).outmod = s.outmod := rfl
@[simp] theorem writeTxsh_out (v : Shift) (s : State) : (writeTxsh v s).out = s.out := rfl
@[simp] theorem writeTxsh_rxIn (v : Shift) (s : State) : (writeTxsh v s).rxIn = s.rxIn := rfl
@[simp] theorem writeTxsh_rxCfg (v : Shift) (s : State) : (writeTxsh v s).rxCfg = s.rxCfg := rfl
@[simp] theorem writeTxsh_rxIe (v : Shift) (s : State) : (writeTxsh v s).rxIe = s.rxIe := rfl
@[simp] theorem writeTxsh_rxIfg (v : Shift) (s : State) : (writeTxsh v s).rxIfg = s.rxIfg := rfl
@[simp] theorem writeTxsh_txDir (v : Shift) (s : State) : (writeTxsh v s).txDir = s.txDir := rfl
@[simp] theorem writeTxsh_txFn (v : Shift) (s : State) : (writeTxsh v s).txFn = s.txFn := rfl
@[simp] theorem writeTxsh_txGpio (v : Shift) (s : State) : (writeTxsh v s).txGpio = s.txGpio := rfl
@[simp] theorem writeTxsh_fgPhase (v : Shift) (s : State) : (writeTxsh v s).fgPhase = s.fgPhase := rfl
@[simp] theorem writeTxsh_fgByte (v : Shift) (s : State) : (writeTxsh v s).fgByte = s.fgByte := rfl
@[simp] theorem writeTxsh_fgResult (v : Shift) (s : State) : (writeTxsh v s).fgResult = s.fgResult := rfl
@[simp] theorem writeTxsh_initialized (v : Shift) (s : State) : (writeTxsh v s).initialized = s.initialized := rfl
@[simp] theorem writeTxsh_faults (v : Shift) (s : State) : (writeTxsh v s).faults = s.faults := rfl
@[simp] theorem writeTxsh_now (v : Shift) (s : State) : (writeTxsh v s).now = s.now := rfl
@[simp] theorem writeTxsh_program (v : Shift) (s : State) : (writeTxsh v s).program = s.program := rfl
@[simp] theorem writeTxsh_schedule (v : Shift) (s : State) : (writeTxsh v s).schedule = s.schedule := rfl
@[simp] theorem writeTxsh_drawCount (v : Shift) (s : State) : (writeTxsh v s).drawCount = s.drawCount := rfl

@[simp] theorem writeRxsh_cfg (v : Shift) (s : State) : (writeRxsh v s).cfg = s.cfg := rfl
@[simp] theorem writeRxsh_txsh (v : Shift) (s : State) : (writeRxsh v s).txsh = s.txsh := rfl
@[simp] theorem writeRxsh_txshWritten (v : Shift) (s : State) : (writeRxsh v s).txshWritten = s.txshWritten := rfl
@[simp] theorem writeRxsh_rxsh (v : Shift) (s : State) : (writeRxsh v s).rxsh = v := rfl
@[simp] theorem writeRxsh_rxshWritten (v : Shift) (s : State) : (writeRxsh v s).rxshWritten = true := rfl
@[simp] theorem writeRxsh_bitcnt (v : Shift) (s : State) : (writeRxsh v s).bitcnt = s.bitcnt := rfl
@[simp] theorem writeRxsh_bitcntWritten (v : Shift) (s : State) : (writeRxsh v s).bitcntWritten = s.bitcntWritten := rfl
@[simp] theorem writeRxsh_receiving (v : Shift) (s : State) : (writeRxsh v s).receiving = s.receiving := rfl
@[simp] theorem writeRxsh_byteReady (v : Shift) (s : State) : (writeRxsh v s).byteReady = s.byteReady := rfl
@[simp] theorem writeRxsh_tar (v : Shift) (s : State) : (writeRxsh v s).tar = s.tar := rfl
@[simp] theorem writeRxsh_tmode (v : Shift) (s : State) : (writeRxsh v s).tmode = s.tmode := rfl
@[simp] theorem writeRxsh_ccr (v : Shift) (s : State) : (writeRxsh v s).ccr = s.ccr := rfl
@[simp] theorem writeRxsh_ccie (v : Shift) (s : State) : (writeRxsh v s).ccie = s.ccie := rfl
@[simp] theorem writeRxsh_ccifg (v : Shift) (s : State) : (writeRxsh v s).ccifg = s.ccifg := rfl
@[simp] theorem writeRxsh_outmod (v : Shift) (s : State) : (writeRxsh v s).outmod = s.outmod := rfl
@[simp] theorem writeRxsh_out (v : Shift) (s : State) : (writeRxsh v s).out = s.out := rfl
@[simp] theorem writeRxsh_rxIn (v : Shift) (s : State) : (writeRxsh v s).rxIn = s.rxIn := rfl
@[simp] theorem writeRxsh_rxCfg (v : Shift) (s : State) : (writeRxsh v s).rxCfg = s.rxCfg := rfl
@[simp] theorem writeRxsh_rxIe (v : Shift) (s : State) : (writeRxsh v s).rxIe = s.rxIe := rfl
@[simp] theorem writeRxsh_rxIfg (v : Shift) (s : State) : (writeRxsh v s).rxIfg = s.rxIfg := rfl
@[simp] theorem writeRxsh_txDir (v : Shift) (s : State) : (writeRxsh v s).txDir = s.txDir := rfl
@[simp] theorem writeRxsh_txFn (v : Shift) (s : State) : (writeRxsh v s).txFn = s.txFn := rfl
@[simp] theorem writeRxsh_txGpio (v : Shift) (s : State) : (writeRxsh v s).txGpio = s.txGpio := rfl
@[simp] theorem writeRxsh_fgPhase (v : Shift) (s : State) : (writeRxsh v s).fgPhase = s.fgPhase := rfl
@[simp] theorem writeRxsh_fgByte (v : Shift) (s : State) : (writeRxsh v s).fgByte = s.fgByte := rfl
@[simp] theorem writeRxsh_fgResult (v : Shift) (s : State) : (writeRxsh v s).fgResult = s.fgResult := rfl
@[simp] theorem writeRxsh_initialized (v : Shift) (s : State) : (writeRxsh v s).initialized = s.initialized := rfl
@[simp] theorem writeRxsh_faults (v : Shift) (s : State) : (writeRxsh v s).faults = s.faults := rfl
@[simp] theorem writeRxsh_now (v : Shift) (s : State) : (writeRxsh v s).now = s.now := rfl
@[simp] theorem writeRxsh_program (v : Shift) (s : State) : (writeRxsh v s).program = s.program := rfl
@[simp] theorem writeRxsh_schedule (v : Shift) (s : State) : (writeRxsh v s).schedule = s.schedule := rfl
@[simp] theorem writeRxsh_drawCount (v : Shift) (s : State) : (writeRxsh v s).drawCount = s.drawCount := rfl

@[simp] theorem writeBitcnt_cfg (v : Count) (s : State) : (writeBitcnt v s).cfg = s.cfg := rfl
@[simp] theorem writeBitcnt_txsh (v : Count) (s : State) : (writeBitcnt v s).txsh = s.txsh := rfl
@[simp] theorem writeBitcnt_txshWritten (v : Count) (s : State) : (writeBitcnt v s).txshWritten = s.txshWritten := rfl
@[simp] theorem writeBitcnt_rxsh (v : Count) (s : State) : (writeBitcnt v s).rxsh = s.rxsh := rfl
@[simp] theorem writeBitcnt_rxshWritten (v : Count) (s : State) : (writeBitcnt v s).rxshWritten = s.rxshWritten := rfl
@[simp] theorem writeBitcnt_bitcnt (v : Count) (s : State) : (writeBitcnt v s).bitcnt = v := rfl
@[simp] theorem writeBitcnt_bitcntWritten (v : Count) (s : State) : (writeBitcnt v s).bitcntWritten = true := rfl
@[simp] theorem writeBitcnt_receiving (v : Count) (s : State) : (writeBitcnt v s).receiving = s.receiving := rfl
@[simp] theorem writeBitcnt_byteReady (v : Count) (s : State) : (writeBitcnt v s).byteReady = s.byteReady := rfl
@[simp] theorem writeBitcnt_tar (v : Count) (s : State) : (writeBitcnt v s).tar = s.tar := rfl
@[simp] theorem writeBitcnt_tmode (v : Count) (s : State) : (writeBitcnt v s).tmode = s.tmode := rfl
@[simp] theorem writeBitcnt_ccr (v : Count) (s : State) : (writeBitcnt v s).ccr = s.ccr := rfl
@[simp] theorem writeBitcnt_ccie (v : Count) (s : State) : (writeBitcnt v s).ccie = s.ccie := rfl
@[simp] theorem writeBitcnt_ccifg (v : Count) (s : State) : (writeBitcnt v s).ccifg = s.ccifg := rfl
@[simp] theorem writeBitcnt_outmod (v : Count) (s : State) : (writeBitcnt v s).outmod = s.outmod := rfl
@[simp] theorem writeBitcnt_out (v : Count) (s : State) : (writeBitcnt v s).out = s.out := rfl
@[simp] theorem writeBitcnt_rxIn (v : Count) (s : State) : (writeBitcnt v s).rxIn = s.rxIn := rfl
@[simp] theorem writeBitcnt_rxCfg (v : Count) (s : State) : (writeBitcnt v s).rxCfg = s.rxCfg := rfl
@[simp] theorem writeBitcnt_rxIe (v : Count) (s : State) : (writeBitcnt v s).rxIe = s.rxIe := rfl
@[simp] theorem writeBitcnt_rxIfg (v : Count) (s : State) : (writeBitcnt v s).rxIfg = s.rxIfg := rfl
@[simp] theorem writeBitcnt_txDir (v : Count) (s : State) : (writeBitcnt v s).txDir = s.txDir := rfl
@[simp] theorem writeBitcnt_txFn (v : Count) (s : State) : (writeBitcnt v s).txFn = s.txFn := rfl
@[simp] theorem writeBitcnt_txGpio (v : Count) (s : State) : (writeBitcnt v s).txGpio = s.txGpio := rfl
@[simp] theorem writeBitcnt_fgPhase (v : Count) (s : State) : (writeBitcnt v s).fgPhase = s.fgPhase := rfl
@[simp] theorem writeBitcnt_fgByte (v : Count) (s : State) : (writeBitcnt v s).fgByte = s.fgByte := rfl
@[simp] theorem writeBitcnt_fgResult (v : Count) (s : State) : (writeBitcnt v s).fgResult = s.fgResult := rfl
@[simp] theorem writeBitcnt_initialized (v : Count) (s : State) : (writeBitcnt v s).initialized = s.initialized := rfl
@[simp] theorem writeBitcnt_faults (v : Count) (s : State) : (writeBitcnt v s).faults = s.faults := rfl
@[simp] theorem writeBitcnt_now (v : Count) (s : State) : (writeBitcnt v s).now = s.now := rfl
@[simp] theorem writeBitcnt_program (v : Count) (s : State) : (writeBitcnt v s).program = s.program := rfl
@[simp] theorem writeBitcnt_schedule (v : Count) (s : State) : (writeBitcnt v s).schedule = s.schedule := rfl
@[simp] theorem writeBitcnt_drawCount (v : Count) (s : State) : (writeBitcnt v s).drawCount = s.drawCount := rfl

@[simp] theorem setCompare_cfg (a n : Nat) (s : State) : (setCompare a n s).cfg = s.cfg := rfl
@[simp] theorem setCompare_txsh (a n : Nat) (s : State) : (setCompare a n s).txsh = s.txsh := rfl
@[simp] theorem setCompare_txshWritten (a n : Nat) (s : State) : (setCompare a n s).txshWritten = s.txshWritten := rfl
@[simp] theorem setCompare_rxsh (a n : Nat) (s : State) : (setCompare a n s).rxsh = s.rxsh := rfl
@[simp] theorem setCompare_rxshWritten (a n : Nat) (s : State) : (setCompare a n s).rxshWritten = s.rxshWritten := rfl
@[simp] theorem setCompare_bitcnt (a n : Nat) (s : State) : (setCompare a n s).bitcnt = s.bitcnt := rfl
@[simp] theorem setCompare_bitcntWritten (a n : Nat) (s : State) : (setCompare a n s).bitcntWritten = s.bitcntWritten := rfl
@[simp] theorem setCompare_receiving (a n : Nat) (s : State) : (setCompare a n s).receiving = s.receiving := rfl
@[simp] theorem setCompare_byteReady (a n : Nat) (s : State) : (setCompare a n s).byteReady = s.byteReady := rfl
@[simp] theorem setCompare_tar (a n : Nat) (s : State) : (setCompare a n s).tar = s.tar := rfl
@[simp] theorem setCompare_tmode (a n : Nat) (s : State) : (setCompare a n s).tmode = s.tmode := rfl
@[simp] theorem setCompare_ccr (a n : Nat) (s : State) : (setCompare a n s).ccr = timerSum s.cfg a n := rfl
@[simp] theorem setCompare_ccie (a n : Nat) (s : State) : (setCompare a n s).ccie = s.ccie := rfl
@[simp] theorem setCompare_ccifg (a n : Nat) (s : State) : (setCompare a n s).ccifg = s.ccifg := rfl
@[simp] theorem setCompare_outmod (a n : Nat) (s : State) : (setCompare a n s).outmod = s.outmod := rfl
@[simp] theorem setCompare_out (a n : Nat) (s : State) : (setCompare a n s).out = s.out := rfl
@[simp] theorem setCompare_rxIn (a n : Nat) (s : State) : (setCompare a n s).rxIn = s.rxIn := rfl
@[simp] theorem setCompare_rxCfg (a n : Nat) (s : State) : (setCompare a n s).rxCfg = s.rxCfg := rfl
@[simp] theorem setCompare_rxIe (a n : Nat) (s : State) : (setCompare a n s).rxIe = s.rxIe := rfl
@[simp] theorem setCompare_rxIfg (a n : Nat) (s : State) : (setCompare a n s).rxIfg = s.rxIfg := rfl
@[simp] theorem setCompare_txDir (a n : Nat) (s : State) : (setCompare a n s).txDir = s.txDir := rfl
@[simp] theorem setCompare_txFn (a n : Nat) (s : State) : (setCompare a n s).txFn = s.txFn := rfl
@[simp] theorem setCompare_txGpio (a n : Nat) (s : State) : (setCompare a n s).txGpio = s.txGpio := rfl
@[simp] theorem setCompare_fgPhase (a n : Nat) (s : State) : (setCompare a n s).fgPhase = s.fgPhase := rfl
@[simp] theorem setCompare_fgByte (a n : Nat) (s : State) : (setCompare a n s).fgByte = s.fgByte := rfl
@[simp] theorem setCompare_fgResult (a n : Nat) (s : State) : (setCompare a n s).fgResult = s.fgResult := rfl
@[simp] theorem setCompare_initialized (a n : Nat) (s : State) : (setCompare a n s).initialized = s.initialized := rfl
@[simp] theorem setCompare_faults (a n : Nat) (s : State) : (setCompare a n s).faults = s.faults := rfl
@[simp] theorem setCompare_now (a n : Nat) (s : State) : (setCompare a n s).now = s.now := rfl
@[simp] theorem setCompare_program (a n : Nat) (s : State) : (setCompare a n s).program = s.program := rfl
@[simp] theorem setCompare_schedule (a n : Nat) (s : State) : (setCompare a n s).schedule = s.schedule := rfl
@[simp] theorem setCompare_drawCount (a n : Nat) (s : State) : (setCompare a n s).drawCount = s.drawCount := rfl

@[simp] theorem writeReceiveOut_cfg (s : State) : (writeReceiveOut s).cfg = s.cfg := rfl
@[simp] theorem writeReceiveOut_txsh (s : State) : (writeReceiveOut s).txsh = s.txsh := rfl
@[simp] theorem writeReceiveOut_txshWritten (s : State) : (writeReceiveOut s).txshWritten = s.txshWritten := rfl
@[simp] theorem writeReceiveOut_rxsh (s : State) : (writeReceiveOut s).rxsh = s.rxsh := rfl
@[simp] theorem writeReceiveOut_rxshWritten (s : State) : (writeReceiveOut s).rxshWritten = s.rxshWritten := rfl
@[simp] theorem writeReceiveOut_bitcnt (s : State) : (writeReceiveOut s).bitcnt = s.bitcnt := rfl
@[simp] theorem writeReceiveOut_bitcntWritten (s : State) : (writeReceiveOut s).bitcntWritten = s.bitcntWritten := rfl
@[simp] theorem writeReceiveOut_receiving (s : State) : (writeReceiveOut s).receiving = s.receiving := rfl
@[simp] theorem writeReceiveOut_byteReady (s : State) : (writeReceiveOut s).byteReady = s.byteReady := rfl
@[simp] theorem writeReceiveOut_tar (s : State) : (writeReceiveOut s).tar = s.tar := rfl
@[simp] theorem writeReceiveOut_tmode (s : State) : (writeReceiveOut s).tmode = s.tmode := rfl
@[simp] theorem writeReceiveOut_ccr (s : State) : (writeReceiveOut s).ccr = s.ccr := rfl
@[simp] theorem writeReceiveOut_ccie (s : State) : (writeReceiveOut s).ccie = s.ccie := rfl
@[simp] theorem writeReceiveOut_ccifg (s : State) : (writeReceiveOut s).ccifg = s.ccifg := rfl
@[simp] theorem writeReceiveOut_outmod (s : State) : (writeReceiveOut s).outmod = s.outmod := rfl
@[simp] theorem writeReceiveOut_out (s : State) : (writeReceiveOut s).out = receiveLevel s.cfg.rxmodeOut s.drawCount := rfl
@[simp] theorem writeReceiveOut_rxIn (s : State) : (writeReceiveOut s).rxIn = s.rxIn := rfl
@[simp] theorem writeReceiveOut_rxCfg (s : State) : (writeReceiveOut s).rxCfg = s.rxCfg := rfl
@[simp] theorem writeReceiveOut_rxIe (s : State) : (writeReceiveOut s).rxIe = s.rxIe := rfl
@[simp] theorem writeReceiveOut_rxIfg (s : State) : (writeReceiveOut s).rxIfg = s.rxIfg := rfl
@[simp] theorem writeReceiveOut_txDir (s : State) : (writeReceiveOut s).txDir = s.txDir := rfl
@[simp] theorem writeReceiveOut_txFn (s : State) : (writeReceiveOut s).txFn = s.txFn := rfl
@[simp] theorem writeReceiveOut_txGpio (s : State) : (writeReceiveOut s).txGpio = s.txGpio := rfl
@[simp] theorem writeReceiveOut_fgPhase (s : State) : (writeReceiveOut s).fgPhase = s.fgPhase := rfl
@[simp] theorem writeReceiveOut_fgByte (s : State) : (writeReceiveOut s).fgByte = s.fgByte := rfl
@[simp] theorem writeReceiveOut_fgResult (s : State) : (writeReceiveOut s).fgResult = s.fgResult := rfl
@[simp] theorem writeReceiveOut_initialized (s : State) : (writeReceiveOut s).initialized = s.initialized := rfl
@[simp] theorem writeReceiveOut_faults (s : State) : (writeReceiveOut s).faults = s.faults := rfl
@[simp] theorem writeReceiveOut_now (s : State) : (writeReceiveOut s).now = s.now := rfl
@[simp] theorem writeReceiveOut_program (s : State) : (writeReceiveOut s).program = s.program := rfl
@[simp] theorem writeReceiveOut_schedule (s : State) : (writeReceiveOut s).schedule = s.schedule := rfl
@[simp] theorem writeReceiveOut_drawCount (s : State) : (writeReceiveOut s).drawCount = drawsAfterArming s.cfg.rxmodeOut s.drawCount := rfl

@[simp] theorem stopTransfer_cfg (s : State) : (stopTransfer s).cfg = s.cfg := rfl
@[simp] theorem stopTransfer_txsh (s : State) : (stopTransfer s).txsh = s.txsh := rfl
@[simp] theorem stopTransfer_txshWritten (s : State) : (stopTransfer s).txshWritten = s.txshWritten := rfl
@[simp] theorem stopTransfer_rxsh (s : State) : (stopTransfer s).rxsh = s.rxsh := rfl
@[simp] theorem stopTransfer_rxshWritten (s : State) : (stopTransfer s).rxshWritten = s.rxshWritten := rfl
@[simp] theorem stopTransfer_bitcnt (s : State) : (stopTransfer s).bitcnt = s.bitcnt := rfl
@[simp] theorem stopTransfer_bitcntWritten (s : State) : (stopTransfer s).bitcntWritten = s.bitcntWritten := rfl
@[simp] theorem stopTransfer_receiving (s : State) : (stopTransfer s).receiving = s.receiving := rfl
@[simp] theorem stopTransfer_byteReady (s : State) : (stopTransfer s).byteReady = s.byteReady := rfl
@[simp] theorem stopTransfer_tar (s : State) : (stopTransfer s).tar = s.tar := rfl
@[simp] theorem stopTransfer_tmode (s : State) : (stopTransfer s).tmode = .stop := rfl
@[simp] theorem stopTransfer_ccr (s : State) : (stopTransfer s).ccr = s.ccr := rfl
@[simp] theorem stopTransfer_ccie (s : State) : (stopTransfer s).ccie = false := rfl
@[simp] theorem stopTransfer_ccifg (s : State) : (stopTransfer s).ccifg = s.ccifg := rfl
@[simp] theorem stopTransfer_outmod (s : State) : (stopTransfer s).outmod = s.outmod := rfl
@[simp] theorem stopTransfer_out (s : State) : (stopTransfer s).out = s.out := rfl
@[simp] theorem stopTransfer_rxIn (s : State) : (stopTransfer s).rxIn = s.rxIn := rfl
@[simp] theorem stopTransfer_rxCfg (s : State) : (stopTransfer s).rxCfg = s.rxCfg := rfl
@[simp] theorem stopTransfer_rxIe (s : State) : (stopTransfer s).rxIe = s.rxIe := rfl
@[simp] theorem stopTransfer_rxIfg (s : State) : (stopTransfer s).rxIfg = s.rxIfg := rfl
@[simp] theorem stopTransfer_txDir (s : State) : (stopTransfer s).txDir = s.txDir := rfl
@[simp] theorem stopTransfer_txFn (s : State) : (stopTransfer s).txFn = s.txFn := rfl
@[simp] theorem stopTransfer_txGpio (s : State) : (stopTransfer s).txGpio = s.txGpio := rfl
@[simp] theorem stopTransfer_fgPhase (s : State) : (stopTransfer s).fgPhase = s.fgPhase := rfl
@[simp] theorem stopTransfer_fgByte (s : State) : (stopTransfer s).fgByte = s.fgByte := rfl
@[simp] theorem stopTransfer_fgResult (s : State) : (stopTransfer s).fgResult = s.fgResult := rfl
@[simp] theorem stopTransfer_initialized (s : State) : (stopTransfer s).initialized = s.initialized := rfl
@[simp] theorem stopTransfer_faults (s : State) : (stopTransfer s).faults = s.faults := rfl
@[simp] theorem stopTransfer_now (s : State) : (stopTransfer s).now = s.now := rfl
@[simp] theorem stopTransfer_program (s : State) : (stopTransfer s).program = s.program := rfl
@[simp] theorem stopTransfer_schedule (s : State) : (stopTransfer s).schedule = s.schedule := rfl
@[simp] theorem stopTransfer_drawCount (s : State) : (stopTransfer s).drawCount = s.drawCount := rfl

@[simp] theorem reenableEdge_cfg (s : State) : (reenableEdge s).cfg = s.cfg := rfl
@[simp] theorem reenableEdge_txsh (s : State) : (reenableEdge s).txsh = s.txsh := rfl
@[simp] theorem reenableEdge_txshWritten (s : State) : (reenableEdge s).txshWritten = s.txshWritten := rfl
@[simp] theorem reenableEdge_rxsh (s : State) : (reenableEdge s).rxsh = s.rxsh := rfl
@[simp] theorem reenableEdge_rxshWritten (s : State) : (reenableEdge s).rxshWritten = s.rxshWritten := rfl
@[simp] theorem reenableEdge_bitcnt (s : State) : (reenableEdge s).bitcnt = s.bitcnt := rfl
@[simp] theorem reenableEdge_bitcntWritten (s : State) : (reenableEdge s).bitcntWritten = s.bitcntWritten := rfl
@[simp] theorem reenableEdge_receiving (s : State) : (reenableEdge s).receiving = s.receiving := rfl
@[simp] theorem reenableEdge_byteReady (s : State) : (reenableEdge s).byteReady = s.byteReady := rfl
@[simp] theorem reenableEdge_tar (s : State) : (reenableEdge s).tar = s.tar := rfl
@[simp] theorem reenableEdge_tmode (s : State) : (reenableEdge s).tmode = s.tmode := rfl
@[simp] theorem reenableEdge_ccr (s : State) : (reenableEdge s).ccr = s.ccr := rfl
@[simp] theorem reenableEdge_ccie (s : State) : (reenableEdge s).ccie = s.ccie := rfl
@[simp] theorem reenableEdge_ccifg (s : State) : (reenableEdge s).ccifg = s.ccifg := rfl
@[simp] theorem reenableEdge_outmod (s : State) : (reenableEdge s).outmod = s.outmod := rfl
@[simp] theorem reenableEdge_out (s : State) : (reenableEdge s).out = s.out := rfl
@[simp] theorem reenableEdge_rxIn (s : State) : (reenableEdge s).rxIn = s.rxIn := rfl
@[simp] theorem reenableEdge_rxCfg (s : State) : (reenableEdge s).rxCfg = s.rxCfg := rfl
@[simp] theorem reenableEdge_rxIe (s : State) : (reenableEdge s).rxIe = true := rfl
@[simp] theorem reenableEdge_rxIfg (s : State) : (reenableEdge s).rxIfg = false := rfl
@[simp] theorem reenableEdge_txDir (s : State) : (reenableEdge s).txDir = s.txDir := rfl
@[simp] theorem reenableEdge_txFn (s : State) : (reenableEdge s).txFn = s.txFn := rfl
@[simp] theorem reenableEdge_txGpio (s : State) : (reenableEdge s).txGpio = s.txGpio := rfl
@[simp] theorem reenableEdge_fgPhase (s : State) : (reenableEdge s).fgPhase = s.fgPhase := rfl
@[simp] theorem reenableEdge_fgByte (s : State) : (reenableEdge s).fgByte = s.fgByte := rfl
@[simp] theorem reenableEdge_fgResult (s : State) : (reenableEdge s).fgResult = s.fgResult := rfl
@[simp] theorem reenableEdge_initialized (s : State) : (reenableEdge s).initialized = s.initialized := rfl
@[simp] theorem reenableEdge_faults (s : State) : (reenableEdge s).faults = s.faults := rfl
@[simp] theorem reenableEdge_now (s : State) : (reenableEdge s).now = s.now := rfl
@[simp] theorem reenableEdge_program (s : State) : (reenableEdge s).program = s.program := rfl
@[simp] theorem reenableEdge_schedule (s : State) : (reenableEdge s).schedule = s.schedule := rfl
@[simp] theorem reenableEdge_drawCount (s : State) : (reenableEdge s).drawCount = s.drawCount := rfl

@[simp] theorem compareMatch_cfg (s : State) : (compareMatch s).cfg = s.cfg := rfl
@[simp] theorem compareMatch_txsh (s : State) : (compareMatch s).txsh = s.txsh := rfl
@[simp] theorem compareMatch_txshWritten (s : State) : (compareMatch s).txshWritten = s.txshWritten := rfl
@[simp] theorem compareMatch_rxsh (s : State) : (compareMatch s).rxsh = s.rxsh := rfl
@[simp] theorem compareMatch_rxshWritten (s : State) : (compareMatch s).rxshWritten = s.rxshWritten := rfl
@[simp] theorem compareMatch_bitcnt (s : State) : (compareMatch s).bitcnt = s.bitcnt := rfl
@[simp] theorem compareMatch_bitcntWritten (s : State) : (compareMatch s).bitcntWritten = s.bitcntWritten := rfl
@[simp] theorem compareMatch_receiving (s : State) : (compareMatch s).receiving = s.receiving := rfl
@[simp] theorem compareMatch_byteReady (s : State) : (compareMatch s).byteReady = s.byteReady := rfl
@[simp] theorem compareMatch_tar (s : State) : (compareMatch s).tar = s.tar := rfl
@[simp] theorem compareMatch_tmode (s : State) : (compareMatch s).tmode = s.tmode := rfl
@[simp] theorem compareMatch_ccr (s : State) : (compareMatch s).ccr = s.ccr := rfl
@[simp] theorem compareMatch_ccie (s : State) : (compareMatch s).ccie = s.ccie := rfl
@[simp] theorem compareMatch_ccifg (s : State) : (compareMatch s).ccifg = true := rfl
@[simp] theorem compareMatch_outmod (s : State) : (compareMatch s).outmod = s.outmod := rfl
@[simp] theorem compareMatch_out (s : State) : (compareMatch s).out = outAfterMatch s.outmod s.out := rfl
@[simp] theorem compareMatch_rxIn (s : State) : (compareMatch s).rxIn = s.rxIn := rfl
@[simp] theorem compareMatch_rxCfg (s : State) : (compareMatch s).rxCfg = s.rxCfg := rfl
@[simp] theorem compareMatch_rxIe (s : State) : (compareMatch s).rxIe = s.rxIe := rfl
@[simp] theorem compareMatch_rxIfg (s : State) : (compareMatch s).rxIfg = s.rxIfg := rfl
@[simp] theorem compareMatch_txDir (s : State) : (compareMatch s).txDir = s.txDir := rfl
@[simp] theorem compareMatch_txFn (s : State) : (compareMatch s).txFn = s.txFn := rfl
@[simp] theorem compareMatch_txGpio (s : State) : (compareMatch s).txGpio = s.txGpio := rfl
@[simp] theorem compareMatch_fgPhase (s : State) : (compareMatch s).fgPhase = s.fgPhase := rfl
@[simp] theorem compareMatch_fgByte (s : State) : (compareMatch s).fgByte = s.fgByte := rfl
@[simp] theorem compareMatch_fgResult (s : State) : (compareMatch s).fgResult = s.fgResult := rfl
@[simp] theorem compareMatch_initialized (s : State) : (compareMatch s).initialized = s.initialized := rfl
@[simp] theorem compareMatch_faults (s : State) : (compareMatch s).faults = s.faults := rfl
@[simp] theorem compareMatch_now (s : State) : (compareMatch s).now = s.now := rfl
@[simp] theorem compareMatch_program (s : State) : (compareMatch s).program = s.program := rfl
@[simp] theorem compareMatch_schedule (s : State) : (compareMatch s).schedule = s.schedule := rfl
@[simp] theorem compareMatch_drawCount (s : State) : (compareMatch s).drawCount = s.drawCount := rfl

end Sys2Proof.Machine
end

