-- ==== Sys2Proof/Laws/Ops.lean ====
section
/-! SUPPORT. For each shared operation, once, everything it can do. -/

namespace Sys2Proof.Machine

/-! ### Stopping and waiting -/

theorem whenLive_next_iff {s t : State} {k : Host.Outcome State Fault Refusal} :
    whenLive s k = .next t ↔ s.faults = [] ∧ k = .next t := by
  unfold whenLive
  cases s.faults <;> simp

@[simp] theorem whenLive_of_live {s : State} {k : Host.Outcome State Fault Refusal} (h : s.faults = []) :
    whenLive s k = k := by
  simp [whenLive, h]

theorem whenLive_of_faulted {s : State} {k : Host.Outcome State Fault Refusal} {f : Fault} {fs : List Fault}
    (h : s.faults = f :: fs) : whenLive s k = .fault f := by
  simp [whenLive, h]

theorem whenIdle_next_iff {s t : State} {k : Host.Outcome State Fault Refusal} :
    whenIdle s k = .next t ↔ s.fgPhase = .idle ∧ k = .next t := by
  unfold whenIdle
  split <;> simp_all

theorem holdUntil_next_iff {c : Bool} {s t : State} :
    holdUntil c s = .next t ↔ c = true ∧ s = t := by
  cases c <;> simp [holdUntil]

/-! ### Faults and the marked registers -/

theorem raiseFault_of_live {f : Fault} {s : State} (h : s.faults = []) : (raiseFault f s).faults = [f] := by
  simp [h]

theorem mem_raiseFault_faults {f g : Fault} {s : State} :
    g ∈ (raiseFault f s).faults ↔ g ∈ s.faults ∨ g = f := by
  by_cases h : f ∈ s.faults
  · simp only [raiseFault_faults, h, if_true]
    exact ⟨Or.inl, fun hg => hg.elim id fun e => e ▸ h⟩
  · simp [h]

theorem subset_raiseFault_faults (f : Fault) (s : State) : s.faults ⊆ (raiseFault f s).faults :=
  fun _ hg => mem_raiseFault_faults.2 (.inl hg)

@[simp] theorem readTxsh_of_written {s : State} {k : Shift → State} (h : s.txshWritten = true) :
    readTxsh s k = k s.txsh := by simp [readTxsh, h]

@[simp] theorem readTxsh_of_unwritten {s : State} {k : Shift → State} (h : s.txshWritten = false) :
    readTxsh s k = raiseFault .unwritten s := by simp [readTxsh, h]

@[simp] theorem readRxsh_of_written {s : State} {k : Shift → State} (h : s.rxshWritten = true) :
    readRxsh s k = k s.rxsh := by simp [readRxsh, h]

@[simp] theorem readRxsh_of_unwritten {s : State} {k : Shift → State} (h : s.rxshWritten = false) :
    readRxsh s k = raiseFault .unwritten s := by simp [readRxsh, h]

@[simp] theorem readBitcnt_of_written {s : State} {k : Count → State} (h : s.bitcntWritten = true) :
    readBitcnt s k = k s.bitcnt := by simp [readBitcnt, h]

@[simp] theorem readBitcnt_of_unwritten {s : State} {k : Count → State} (h : s.bitcntWritten = false) :
    readBitcnt s k = raiseFault .unwritten s := by simp [readBitcnt, h]

/-! ### The timer -/

theorem timerModulus_pos (c : Config) : 0 < c.timerModulus := Nat.two_pow_pos _

theorem timerSum_lt (c : Config) (a n : Nat) : timerSum c a n < c.timerModulus :=
  Nat.mod_lt _ (timerModulus_pos c)

/-- Everything arming may do to the pending compare flag. -/
theorem armClearFlag_eq (s : State) :
    armClearFlag s = { s with ccifg := s.ccifg && !s.cfg.armClearsFlag } := by
  unfold armClearFlag
  cases s.cfg.armClearsFlag <;> simp

theorem compareMatch_hold {s : State} (h : s.outmod = .hold) : (compareMatch s).out = s.out := by
  simp [outAfterMatch, h]

/-! ### The vector register and the requests -/

theorem readIv_of_requested {s : State} (h : ccRequested s = true) :
    readIv s = (.this, { s with ccifg := false }) := by simp [readIv, h]

theorem readIv_of_not_requested {s : State} (h : ccRequested s = false) : readIv s = (.other, s) := by
  simp [readIv, h]

theorem ccEnabled_iff {s : State} :
    ccEnabled s = true ↔ s.initialized = true ∧ s.ccie = true ∧ s.ccifg = true := by
  simp [ccEnabled, ccRequested]

theorem edgeEnabled_iff {s : State} :
    edgeEnabled s = true ↔
      s.initialized = true ∧ s.rxCfg = true ∧ s.cfg.rxEnabled = true ∧ s.rxIe = true ∧ s.rxIfg = true := by
  simp [edgeEnabled, edgeRequested, and_assoc]

/-! ### Fetching -/

theorem fetchEvent_ok_iff {s t : State} {i : Instr} :
    fetchEvent s = .ok (i, t) ↔
      ∃ w rest, s.schedule = w :: rest ∧ decodeIn .event s.cfg w = .ok i ∧ t = { s with schedule := rest } := by
  unfold fetchEvent
  cases hs : s.schedule with
  | nil => simp
  | cons w rest =>
    cases hd : decodeIn .event s.cfg w with
    | error r => simp [hd]
    | ok j =>
      constructor
      · intro h
        simp only [hd, Except.ok.injEq, Prod.mk.injEq] at h
        exact ⟨w, rest, rfl, h.1 ▸ hd, h.2.symm⟩
      · rintro ⟨w', rest', hl, hi, rfl⟩
        simp only [List.cons.injEq] at hl
        obtain ⟨rfl, rfl⟩ := hl
        rw [hd] at hi
        simp only [Except.ok.injEq] at hi
        simp [hd, hi]

theorem fetchCommand_ok_iff {s t : State} {i : Instr} :
    fetchCommand s = .ok (i, t) ↔
      ∃ w rest, s.program = w :: rest ∧ decodeIn .host s.cfg w = .ok i ∧ t = { s with program := rest } := by
  unfold fetchCommand
  cases hs : s.program with
  | nil => simp
  | cons w rest =>
    cases hd : decodeIn .host s.cfg w with
    | error r => simp [hd]
    | ok j =>
      constructor
      · intro h
        simp only [hd, Except.ok.injEq, Prod.mk.injEq] at h
        exact ⟨w, rest, rfl, h.1 ▸ hd, h.2.symm⟩
      · rintro ⟨w', rest', hl, hi, rfl⟩
        simp only [List.cons.injEq] at hl
        obtain ⟨rfl, rfl⟩ := hl
        rw [hd] at hi
        simp only [Except.ok.injEq] at hi
        simp [hd, hi]

/-- A word decoded for a list belongs to the list's group. -/
theorem decodeIn_group {g : Group} {c : Config} {w : Word} {i : Instr} (h : decodeIn g c w = .ok i) :
    i.group = g ∧ decode c w = .ok i := by
  unfold decodeIn at h
  cases hd : decode c w with
  | error r => simp [hd] at h
  | ok j =>
    simp only [hd] at h
    split at h
    · cases h
      exact ⟨by assumption, rfl⟩
    · cases h

/-! ### A step -/

/-- Everything a step that answers a next state has done. -/
theorem step_next_iff {s t : State} :
    step s = .next t ↔
      s.cfg.legal = true ∧ s.faults = [] ∧
      ∃ i u, fetchEvent s = .ok (i, u) ∧ exec i u = .next t := by
  unfold step runNextEvent
  cases hl : s.cfg.legal with
  | false => simp
  | true =>
    simp only [if_true, whenLive_next_iff, true_and]
    cases hf : fetchEvent s with
    | error r => simp
    | ok p =>
      obtain ⟨i, u⟩ := p
      refine and_congr_right fun _ => ⟨fun h => ⟨i, u, rfl, h⟩, ?_⟩
      rintro ⟨i', u', he, h⟩
      cases he
      exact h

end Sys2Proof.Machine
end

