-- ==== Sys2Proof/Laws/Meanings.lean ====
section
/-! SUPPORT. For each meaning, once, when it answers a next state and which. -/

namespace Sys2Proof.Machine

theorem execInit_next_iff {s t : State} :
    execInit s = .next t ↔ s.faults = [] ∧ s.fgPhase = .idle ∧ initCommand s = t := by
  simp [execInit, whenLive_next_iff, whenIdle_next_iff]

theorem execSend_next_iff {b : Byte} {s t : State} :
    execSend b s = .next t ↔ s.faults = [] ∧ s.fgPhase = .idle ∧ sendCommand b s = t := by
  simp [execSend, whenLive_next_iff, whenIdle_next_iff]

theorem execRecv_next_iff {s t : State} :
    execRecv s = .next t ↔
      s.faults = [] ∧ s.cfg.rxEnabled = true ∧ s.fgPhase = .idle ∧ recvCommand s = t := by
  simp only [execRecv, whenLive_next_iff]
  split <;> simp_all [whenIdle_next_iff]

theorem execIrqEdge_next_iff {s t : State} :
    execIrqEdge s = .next t ↔ s.faults = [] ∧ edgeEnabled s = true ∧ edgeHandler s = t := by
  simp only [execIrqEdge, whenLive_next_iff]
  cases hr : s.cfg.rxEnabled with
  | false => simp [edgeEnabled, edgeRequested, hr]
  | true => cases edgeEnabled s <;> simp

theorem execIrqCc_next_iff {s t : State} :
    execIrqCc s = .next t ↔ s.faults = [] ∧ ccEnabled s = true ∧ ccHandler s = t := by
  simp only [execIrqCc, whenLive_next_iff]
  cases ccEnabled s <;> simp

theorem execTick_next_iff {s t : State} :
    execTick s = .next t ↔ s.faults = [] ∧ timerTick s = t := by
  simp [execTick, whenLive_next_iff]

theorem execLine_next_iff {v : Bool} {s t : State} :
    execLine v s = .next t ↔ s.faults = [] ∧ s.cfg.rxEnabled = true ∧ setLine v s = t := by
  simp only [execLine, whenLive_next_iff]
  cases s.cfg.rxEnabled <;> simp

theorem execFg_next_iff {s t : State} :
    execFg s = .next t ↔ s.faults = [] ∧ microStep s = .next t := by
  simp [execFg, whenLive_next_iff]

/-- A started command is one of the three host commands, executed in the state without its word. -/
theorem startNextCommand_next {s t : State} (h : startNextCommand s = .next t) :
    ∃ w rest i, s.program = w :: rest ∧ decodeIn .host s.cfg w = .ok i ∧
      runCommand i { s with program := rest } = .next t := by
  unfold startNextCommand at h
  cases hf : fetchCommand s with
  | error r => simp [hf] at h
  | ok p =>
    obtain ⟨i, u⟩ := p
    simp only [hf] at h
    obtain ⟨w, rest, hp, hd, rfl⟩ := fetchCommand_ok_iff.1 hf
    exact ⟨w, rest, i, hp, hd, h⟩

/-- Everything a started host command can be. -/
theorem runCommand_next_cases {i : Instr} {s t : State} (h : runCommand i s = .next t) :
    s.faults = [] ∧ s.fgPhase = .idle ∧
    (i = .init ∧ t = initCommand s ∨
     (∃ b, i = .send b ∧ t = sendCommand b s) ∨
     i = .recv ∧ s.cfg.rxEnabled = true ∧ t = recvCommand s) := by
  cases i with
  | init =>
    obtain ⟨h1, h2, rfl⟩ := execInit_next_iff.1 h
    exact ⟨h1, h2, .inl ⟨rfl, rfl⟩⟩
  | send b =>
    obtain ⟨h1, h2, rfl⟩ := execSend_next_iff.1 h
    exact ⟨h1, h2, .inr (.inl ⟨b, rfl, rfl⟩)⟩
  | recv =>
    obtain ⟨h1, h2, h3, rfl⟩ := execRecv_next_iff.1 h
    exact ⟨h1, h3, .inr (.inr ⟨rfl, h2, rfl⟩)⟩
  | fg => cases h
  | irqEdge => cases h
  | irqCc => cases h
  | tick => cases h
  | line v => cases h

/-- Everything a foreground step can be: the start of a command, or one micro-step. -/
theorem execFg_next_cases {s t : State} (h : execFg s = .next t) :
    s.faults = [] ∧
    ((s.fgPhase = .idle ∧ ∃ w rest i, s.program = w :: rest ∧ decodeIn .host s.cfg w = .ok i ∧
        runCommand i { s with program := rest } = .next t) ∨
     (s.fgPhase = .s1 ∧ t = sendS1 s) ∨
     (s.fgPhase = .s2 ∧ s.receiving = false ∧ t = sendS2 s) ∨
     (s.fgPhase = .s3 ∧ t = sendS3 s) ∨
     (s.fgPhase = .s4 ∧ t = sendS4 s) ∨
     (s.fgPhase = .s5 ∧ t = sendS5 s) ∨
     (s.fgPhase = .s6 ∧ t = sendS6 s) ∨
     (s.fgPhase = .s7 ∧ t = sendS7 s) ∨
     (s.fgPhase = .s8 ∧ s.ccie = false ∧ t = sendS8 s) ∨
     (s.fgPhase = .r1 ∧ s.byteReady = true ∧ t = recvR1 s) ∨
     (s.fgPhase = .r2 ∧ t = recvR2 s)) := by
  obtain ⟨hf, hm⟩ := execFg_next_iff.1 h
  refine ⟨hf, ?_⟩
  unfold microStep at hm
  cases hp : s.fgPhase <;> simp only [hp, holdUntil_next_iff, Host.Outcome.next.injEq] at hm
  · simpa [hp] using startNextCommand_next hm
  · simp [hm.symm]
  · simpa [hm.2.symm] using hm.1
  · simp [hm.symm]
  · simp [hm.symm]
  · simp [hm.symm]
  · simp [hm.symm]
  · simp [hm.symm]
  · simpa [hm.2.symm] using hm.1
  · simp [hm.2.symm, hm.1]
  · simp [hm.symm]

/-- Entered while requested, the compare handler clears the flag and dispatches, through either vector. -/
theorem ccHandler_of_requested {s : State} (h : ccRequested s = true) :
    ccHandler s = ccDispatch { s with ccifg := false } := by
  unfold ccHandler ccSharedEntry ccDedicatedEntry
  split
  · rfl
  · rw [readIv_of_requested h]

/-- Everything the edge handler's arming writes. -/
theorem armReceive_eq (s : State) :
    armReceive s =
      { s with
        receiving := true, rxIe := false, rxIfg := false, tmode := .cont,
        ccr := timerSum s.cfg s.tar s.cfg.halfBitTime,
        outmod := .hold,
        out := receiveLevel s.cfg.rxmodeOut s.drawCount,
        drawCount := drawsAfterArming s.cfg.rxmodeOut s.drawCount,
        ccie := true, ccifg := s.ccifg && !s.cfg.armClearsFlag,
        rxsh := 0#10, rxshWritten := true, bitcnt := 9#4, bitcntWritten := true } := by
  simp only [armReceive, armClearFlag_eq, setCompare, writeReceiveOut, writeBitcnt, writeRxsh]

/-- INIT's register writes, in one record. -/
theorem initRegisters_eq (s : State) :
    initRegisters s =
      { s with
        txGpio := true, txDir := .output, out := true, outmod := .hold, txFn := .timer, tmode := .stop,
        ccie := false, ccifg := false,
        rxCfg := s.cfg.rxEnabled || s.rxCfg, rxIfg := !s.cfg.rxEnabled && s.rxIfg,
        rxIe := s.cfg.rxEnabled || s.rxIe, initialized := true, fgPhase := .idle } := by
  cases h : s.cfg.rxEnabled <;> simp [initRegisters, initRxPin, h]

/-- S7 in one record. -/
theorem sendS7_eq (s : State) :
    sendS7 s =
      { s with
        outmod := .set, out := true, ccie := true, ccifg := s.ccifg && !s.cfg.armClearsFlag, fgPhase := .s8 } := by
  simp only [sendS7, armClearFlag_eq]

/-- The transmit branch with bits left, its registers written. -/
theorem transmitBranch_bit {n : Count} {s : State} (hn : n ≠ 0#4) (hw : s.txshWritten = true) :
    transmitBranch n s =
      { s with
        ccr := timerSum s.cfg s.ccr s.cfg.bitTime, outmod := outModeOfBit (s.txsh.getLsbD 0),
        txsh := s.txsh >>> 1, txshWritten := true, bitcnt := n - 1#4, bitcntWritten := true } := by
  simp [transmitBranch, hn, transmitBit, readTxsh, advanceCompare, setCompare, hw, writeTxsh, writeBitcnt]

/-- The transmit branch with no bit left. -/
theorem transmitBranch_end (s : State) :
    transmitBranch 0#4 s =
      { s with ccr := timerSum s.cfg s.ccr s.cfg.bitTime, tmode := .stop, ccie := false } := by
  simp [transmitBranch, advanceCompare, setCompare, stopTransfer]

/-- The value of the incoming shift register once the RX line is sampled. -/
def sampledShift (level : Bool) (v : Shift) : Shift := if level then markSample v else v

/-- The receive branch with samples left, its registers written. -/
theorem receiveBranch_bit {n : Count} {s : State} (hn : n ≠ 0#4) (hw : s.rxshWritten = true) :
    receiveBranch n s =
      { s with
        ccr := timerSum s.cfg s.ccr s.cfg.bitTime,
        rxsh := sampledShift s.rxIn s.rxsh >>> 1, rxshWritten := true,
        bitcnt := n - 1#4, bitcntWritten := true } := by
  cases hr : s.rxIn <;>
    simp [receiveBranch, hn, receiveBit, sampleRx, readRxsh, advanceCompare, setCompare, hw, hr, writeRxsh,
      writeBitcnt, sampledShift]

/-- The receive branch that ends a frame, its registers written. -/
theorem receiveBranch_end {s : State} (hw : s.rxshWritten = true) :
    receiveBranch 0#4 s =
      { s with
        ccr := timerSum s.cfg s.ccr s.cfg.bitTime, tmode := .stop, ccie := false, receiving := false,
        rxIfg := false, rxIe := true, rxshWritten := true,
        rxsh := if validFrame (sampledShift s.rxIn s.rxsh) then frameData (sampledShift s.rxIn s.rxsh)
          else sampledShift s.rxIn s.rxsh,
        byteReady := s.byteReady || validFrame (sampledShift s.rxIn s.rxsh) } := by
  cases hr : s.rxIn <;>
    simp only [receiveBranch, receiveEnd, sampleRx, readRxsh, advanceCompare, setCompare, hw, hr, writeRxsh,
      deliverFrame, reenableEdge, stopTransfer, sampledShift, if_true, Bool.false_eq_true, if_false] <;>
    split <;> simp_all

/-- The dispatch with the bit counter written and in range. -/
theorem ccDispatch_of_written {s : State} (hw : s.bitcntWritten = true) (hr : s.bitcnt ≤ 10#4) :
    ccDispatch s = if s.receiving then receiveBranch s.bitcnt s else transmitBranch s.bitcnt s := by
  have h : ¬ 10#4 < s.bitcnt := BitVec.not_lt.mpr hr
  simp [ccDispatch, readBitcnt, hw, h]

/-- Everything the transmit branch can do. -/
theorem transmitBranch_cases (n : Count) (s : State) :
    (n = 0#4 ∧ transmitBranch n s =
      { s with ccr := timerSum s.cfg s.ccr s.cfg.bitTime, tmode := .stop, ccie := false }) ∨
    (n ≠ 0#4 ∧ s.txshWritten = true ∧ transmitBranch n s =
      { s with
        ccr := timerSum s.cfg s.ccr s.cfg.bitTime, outmod := outModeOfBit (s.txsh.getLsbD 0),
        txsh := s.txsh >>> 1, txshWritten := true, bitcnt := n - 1#4, bitcntWritten := true }) ∨
    (n ≠ 0#4 ∧ s.txshWritten = false ∧ transmitBranch n s = raiseFault .unwritten (advanceCompare s)) := by
  by_cases hn : n = 0#4
  · exact .inl ⟨hn, hn ▸ transmitBranch_end s⟩
  · cases hw : s.txshWritten
    · refine .inr (.inr ⟨hn, rfl, ?_⟩)
      simp [transmitBranch, hn, transmitBit, readTxsh, advanceCompare, hw]
    · exact .inr (.inl ⟨hn, rfl, transmitBranch_bit hn hw⟩)

/-- Everything the receive branch can do. -/
theorem receiveBranch_cases (n : Count) (s : State) :
    (n ≠ 0#4 ∧ s.rxshWritten = true ∧ receiveBranch n s =
      { s with
        ccr := timerSum s.cfg s.ccr s.cfg.bitTime,
        rxsh := sampledShift s.rxIn s.rxsh >>> 1, rxshWritten := true,
        bitcnt := n - 1#4, bitcntWritten := true }) ∨
    (n = 0#4 ∧ s.rxshWritten = true ∧ receiveBranch n s =
      { s with
        ccr := timerSum s.cfg s.ccr s.cfg.bitTime, tmode := .stop, ccie := false, receiving := false,
        rxIfg := false, rxIe := true, rxshWritten := true,
        rxsh := if validFrame (sampledShift s.rxIn s.rxsh) then frameData (sampledShift s.rxIn s.rxsh)
          else sampledShift s.rxIn s.rxsh,
        byteReady := s.byteReady || validFrame (sampledShift s.rxIn s.rxsh) }) ∨
    (s.rxshWritten = false ∧ receiveBranch n s = raiseFault .unwritten (advanceCompare s)) ∨
    (n = 0#4 ∧ s.rxshWritten = false ∧ receiveBranch n s =
      raiseFault .unwritten
        { s with
          ccr := timerSum s.cfg s.ccr s.cfg.bitTime, tmode := .stop, ccie := false, receiving := false,
          rxIfg := false, rxIe := true }) := by
  cases hw : s.rxshWritten
  · by_cases hn : n = 0#4
    · cases hr : s.rxIn
      · refine .inr (.inr (.inr ⟨hn, rfl, ?_⟩))
        simp [receiveBranch, hn, receiveEnd, sampleRx, deliverFrame, readRxsh, advanceCompare, hw, hr,
          setCompare, stopTransfer, reenableEdge]
      · refine .inr (.inr (.inl ⟨rfl, ?_⟩))
        simp [receiveBranch, hn, receiveEnd, sampleRx, readRxsh, advanceCompare, hw, hr]
    · refine .inr (.inr (.inl ⟨rfl, ?_⟩))
      cases hr : s.rxIn <;>
        simp [receiveBranch, hn, receiveBit, sampleRx, readRxsh, advanceCompare, hw, hr]
  · by_cases hn : n = 0#4
    · exact .inr (.inl ⟨hn, rfl, hn ▸ receiveBranch_end hw⟩)
    · exact .inl ⟨hn, rfl, receiveBranch_bit hn hw⟩

/-- Everything the dispatch can do. -/
theorem ccDispatch_cases (s : State) :
    (s.bitcntWritten = false ∧ ccDispatch s = raiseFault .unwritten s) ∨
    (s.bitcntWritten = true ∧ 10#4 < s.bitcnt ∧ ccDispatch s = raiseFault .bitcntRange s) ∨
    (s.bitcntWritten = true ∧ s.bitcnt ≤ 10#4 ∧ s.receiving = false ∧
      ccDispatch s = transmitBranch s.bitcnt s) ∨
    (s.bitcntWritten = true ∧ s.bitcnt ≤ 10#4 ∧ s.receiving = true ∧
      ccDispatch s = receiveBranch s.bitcnt s) := by
  cases hw : s.bitcntWritten
  · exact .inl ⟨rfl, readBitcnt_of_unwritten hw⟩
  · by_cases hr : s.bitcnt ≤ 10#4
    · cases hc : s.receiving
      · exact .inr (.inr (.inl ⟨rfl, hr, rfl, by simp [ccDispatch_of_written hw hr, hc]⟩))
      · exact .inr (.inr (.inr ⟨rfl, hr, rfl, by simp [ccDispatch_of_written hw hr, hc]⟩))
    · have h : 10#4 < s.bitcnt := BitVec.not_le.mp hr
      exact .inr (.inl ⟨rfl, h, by simp [ccDispatch, readBitcnt, hw, h]⟩)

/-- A tick of the stopped timer. -/
theorem timerTick_stop {s : State} (h : s.tmode = .stop) : timerTick s = { s with now := s.now + 1 } := by
  simp [timerTick, h]

/-- A tick of the running timer. -/
theorem timerTick_cont {s : State} (h : s.tmode = .cont) :
    timerTick s =
      if timerSum s.cfg s.tar 1 = s.ccr then
        { s with
          now := s.now + 1, tar := timerSum s.cfg s.tar 1, ccifg := true, out := outAfterMatch s.outmod s.out }
      else { s with now := s.now + 1, tar := timerSum s.cfg s.tar 1 } := by
  simp only [timerTick, h, countTick]
  split <;> simp_all [compareMatch]

end Sys2Proof.Machine
end

