-- ==== Sys2Proof/Laws/Moves.lean ====
section
/-! SUPPORT. Once, everything an operation that answers a next state has done (`exec_next_move`): an invariant or a
whole-machine rule is then one case analysis over `Move`, with no meaning unfolded. -/

namespace Sys2Proof.Machine

/-- How the host command `c` came to run: executed directly, or started by FG from the program, `p` being what is left
of the program. -/
inductive Taken (c : Instr) (s : State) : Instr → List Word → Prop
  | direct : Taken c s c s.program
  | started (w : Word) (rest : List Word) :
      s.program = w :: rest → decodeIn .host s.cfg w = .ok c → Taken c s .fg rest

/-- Every next state of every operation, from a state with no fault recorded. -/
inductive Move (s : State) : Instr → State → Prop
  | initBusy {i p} : Taken .init s i p → s.fgPhase = .idle → initBusy s = true →
      Move s i { s with program := p, faults := [.initBusy] }
  | init {i p} : Taken .init s i p → s.fgPhase = .idle → initBusy s = false →
      Move s i { s with
        program := p, txGpio := true, txDir := .output, out := true, outmod := .hold, txFn := .timer,
        tmode := .stop, ccie := false, ccifg := false,
        rxCfg := s.cfg.rxEnabled || s.rxCfg, rxIfg := !s.cfg.rxEnabled && s.rxIfg,
        rxIe := s.cfg.rxEnabled || s.rxIe, initialized := true, fgPhase := .idle }
  | sendNotInitialized {i p b} : Taken (.send b) s i p → s.fgPhase = .idle → s.initialized = false →
      Move s i { s with program := p, faults := [.notInitialized] }
  | send {i p b} : Taken (.send b) s i p → s.fgPhase = .idle → s.initialized = true →
      Move s i { s with program := p, fgByte := b, fgPhase := .s1 }
  | recvNotInitialized {i p} : Taken .recv s i p → s.cfg.rxEnabled = true → s.fgPhase = .idle →
      s.initialized = false → Move s i { s with program := p, faults := [.notInitialized] }
  | recv {i p} : Taken .recv s i p → s.cfg.rxEnabled = true → s.fgPhase = .idle → s.initialized = true →
      Move s i { s with program := p, fgPhase := .r1 }
  | s1 : s.fgPhase = .s1 →
      Move s .fg { s with txsh := zext10 s.fgByte, txshWritten := true, fgPhase := .s2 }
  | s2 : s.fgPhase = .s2 → s.receiving = false → Move s .fg { s with fgPhase := .s3 }
  | s3 : s.fgPhase = .s3 →
      Move s .fg { s with out := true, outmod := .hold, tmode := .cont, fgPhase := .s4 }
  | s4 : s.fgPhase = .s4 → Move s .fg { s with bitcnt := 10#4, bitcntWritten := true, fgPhase := .s5 }
  | s5 : s.fgPhase = .s5 →
      Move s .fg { s with ccr := timerSum s.cfg s.tar s.cfg.bitTime, fgPhase := .s6 }
  | s6 : s.fgPhase = .s6 → s.txshWritten = true →
      Move s .fg { s with txsh := frameBits s.txsh, txshWritten := true, fgPhase := .s7 }
  | s6Unwritten : s.fgPhase = .s6 → s.txshWritten = false → Move s .fg { s with faults := [.unwritten] }
  | s7 : s.fgPhase = .s7 →
      Move s .fg { s with
        outmod := .set, out := true, ccie := true, ccifg := s.ccifg && !s.cfg.armClearsFlag, fgPhase := .s8 }
  | s8 : s.fgPhase = .s8 → s.ccie = false → Move s .fg { s with fgPhase := .idle }
  | r1 : s.fgPhase = .r1 → s.byteReady = true → Move s .fg { s with fgPhase := .r2 }
  | r2 : s.fgPhase = .r2 → s.rxshWritten = true →
      Move s .fg { s with fgResult := resultByte s.rxsh, byteReady := false, fgPhase := .idle }
  | r2Unwritten : s.fgPhase = .r2 → s.rxshWritten = false → Move s .fg { s with faults := [.unwritten] }
  | edgeInArmWindow : edgeEnabled s = true → s.fgPhase.inArmWindow = true →
      Move s .irqEdge { s with faults := [.edgeInArmWindow] }
  | edge : edgeEnabled s = true → s.fgPhase.inArmWindow = false →
      Move s .irqEdge { s with
        receiving := true, rxIe := false, rxIfg := false, tmode := .cont,
        ccr := timerSum s.cfg s.tar s.cfg.halfBitTime, outmod := .hold,
        out := receiveLevel s.cfg.rxmodeOut s.drawCount,
        drawCount := drawsAfterArming s.cfg.rxmodeOut s.drawCount,
        ccie := true, ccifg := s.ccifg && !s.cfg.armClearsFlag,
        rxsh := 0#10, rxshWritten := true, bitcnt := 9#4, bitcntWritten := true }
  | ccUnwritten : ccEnabled s = true → s.bitcntWritten = false →
      Move s .irqCc { s with ccifg := false, faults := [.unwritten] }
  | ccRange : ccEnabled s = true → s.bitcntWritten = true → 10#4 < s.bitcnt →
      Move s .irqCc { s with ccifg := false, faults := [.bitcntRange] }
  | transmitEnd : ccEnabled s = true → s.bitcntWritten = true → s.receiving = false → s.bitcnt = 0#4 →
      Move s .irqCc { s with
        ccifg := false, ccr := timerSum s.cfg s.ccr s.cfg.bitTime, tmode := .stop, ccie := false }
  | transmitBit : ccEnabled s = true → s.bitcntWritten = true → s.bitcnt ≤ 10#4 → s.receiving = false →
      s.bitcnt ≠ 0#4 → s.txshWritten = true →
      Move s .irqCc { s with
        ccifg := false, ccr := timerSum s.cfg s.ccr s.cfg.bitTime,
        outmod := outModeOfBit (s.txsh.getLsbD 0), txsh := s.txsh >>> 1, txshWritten := true,
        bitcnt := s.bitcnt - 1#4, bitcntWritten := true }
  | transmitUnwritten : ccEnabled s = true → s.bitcntWritten = true → s.bitcnt ≤ 10#4 → s.receiving = false →
      s.bitcnt ≠ 0#4 → s.txshWritten = false →
      Move s .irqCc { s with
        ccifg := false, ccr := timerSum s.cfg s.ccr s.cfg.bitTime, faults := [.unwritten] }
  | receiveBit : ccEnabled s = true → s.bitcntWritten = true → s.bitcnt ≤ 10#4 → s.receiving = true →
      s.bitcnt ≠ 0#4 → s.rxshWritten = true →
      Move s .irqCc { s with
        ccifg := false, ccr := timerSum s.cfg s.ccr s.cfg.bitTime,
        rxsh := sampledShift s.rxIn s.rxsh >>> 1, rxshWritten := true,
        bitcnt := s.bitcnt - 1#4, bitcntWritten := true }
  | receiveEnd : ccEnabled s = true → s.bitcntWritten = true → s.receiving = true → s.bitcnt = 0#4 →
      s.rxshWritten = true →
      Move s .irqCc { s with
        ccifg := false, ccr := timerSum s.cfg s.ccr s.cfg.bitTime, tmode := .stop, ccie := false,
        receiving := false, rxIfg := false, rxIe := true, rxshWritten := true,
        rxsh := if validFrame (sampledShift s.rxIn s.rxsh) then frameData (sampledShift s.rxIn s.rxsh)
          else sampledShift s.rxIn s.rxsh,
        byteReady := s.byteReady || validFrame (sampledShift s.rxIn s.rxsh) }
  | receiveUnwritten : ccEnabled s = true → s.bitcntWritten = true → s.receiving = true → s.rxshWritten = false →
      Move s .irqCc { s with
        ccifg := false, ccr := timerSum s.cfg s.ccr s.cfg.bitTime, faults := [.unwritten] }
  | receiveEndUnwritten : ccEnabled s = true → s.bitcntWritten = true → s.receiving = true → s.bitcnt = 0#4 →
      s.rxshWritten = false →
      Move s .irqCc { s with
        ccifg := false, ccr := timerSum s.cfg s.ccr s.cfg.bitTime, tmode := .stop, ccie := false,
        receiving := false, rxIfg := false, rxIe := true, faults := [.unwritten] }
  | tickStopped : s.tmode = .stop → Move s .tick { s with now := s.now + 1 }
  | tickCount : s.tmode = .cont → timerSum s.cfg s.tar 1 ≠ s.ccr →
      Move s .tick { s with now := s.now + 1, tar := timerSum s.cfg s.tar 1 }
  | tickMatch : s.tmode = .cont → timerSum s.cfg s.tar 1 = s.ccr →
      Move s .tick { s with
        now := s.now + 1, tar := timerSum s.cfg s.tar 1, ccifg := true, out := outAfterMatch s.outmod s.out }
  | line {v} : s.cfg.rxEnabled = true → Move s (.line v) { s with rxIn := v, rxIfg := edgeFlagAfter s v }

theorem raiseFault_eq {f : Fault} {s : State} (h : s.faults = []) : raiseFault f s = { s with faults := [f] } := by
  simp [raiseFault, h]

/-- A host command that ran, from the state `u` that is `s` with the program `p` left. -/
theorem runCommand_move {c i : Instr} {s t : State} {p : List Word} (ht : Taken c s i p)
    (h : runCommand c { s with program := p } = .next t) : s.faults = [] ∧ Move s i t := by
  obtain ⟨hf, hp, ⟨rfl, rfl⟩ | ⟨b, rfl, rfl⟩ | ⟨rfl, hx, rfl⟩⟩ := runCommand_next_cases h
  · refine ⟨hf, ?_⟩
    cases hb : initBusy s with
    | true =>
      have e : initCommand { s with program := p } = { s with program := p, faults := [.initBusy] } := by
        rw [initCommand, if_pos (by exact hb), raiseFault_eq hf]
      exact e ▸ .initBusy ht hp hb
    | false =>
      have hb' : initBusy { s with program := p } = false := hb
      rw [initCommand, hb', if_neg (by simp), initRegisters_eq]
      exact .init ht hp hb
  · refine ⟨hf, ?_⟩
    by_cases hi : s.initialized = true
    · rw [sendCommand, if_pos (by exact hi)]
      exact .send ht hp hi
    · rw [sendCommand, if_neg (by exact hi), raiseFault_eq hf]
      exact .sendNotInitialized ht hp (Bool.eq_false_iff.2 hi)
  · refine ⟨hf, ?_⟩
    by_cases hi : s.initialized = true
    · rw [recvCommand, if_pos (by exact hi)]
      exact .recv ht hx hp hi
    · rw [recvCommand, if_neg (by exact hi), raiseFault_eq hf]
      exact .recvNotInitialized ht hx hp (Bool.eq_false_iff.2 hi)

/-- A foreground step that answered a next state. -/
theorem execFg_move {s t : State} (h : execFg s = .next t) : s.faults = [] ∧ Move s .fg t := by
  obtain ⟨hf, ⟨_, w, rest, c, hp, hd, hr⟩ | h | h | h | h | h | h | h | h | h | h⟩ := execFg_next_cases h
  · exact runCommand_move (.started w rest hp hd) hr
  all_goals refine ⟨hf, ?_⟩
  · obtain ⟨hp, rfl⟩ := h
    exact .s1 hp
  · obtain ⟨hp, hr, rfl⟩ := h
    exact .s2 hp hr
  · obtain ⟨hp, rfl⟩ := h
    exact .s3 hp
  · obtain ⟨hp, rfl⟩ := h
    exact .s4 hp
  · obtain ⟨hp, rfl⟩ := h
    exact .s5 hp
  · obtain ⟨hp, rfl⟩ := h
    cases hw : s.txshWritten with
    | true =>
      simp only [sendS6, readTxsh_of_written hw]
      exact .s6 hp hw
    | false =>
      simp only [sendS6, readTxsh_of_unwritten hw, raiseFault_eq hf]
      exact .s6Unwritten hp hw
  · obtain ⟨hp, rfl⟩ := h
    exact sendS7_eq s ▸ .s7 hp
  · obtain ⟨hp, hc, rfl⟩ := h
    exact .s8 hp hc
  · obtain ⟨hp, hb, rfl⟩ := h
    exact .r1 hp hb
  · obtain ⟨hp, rfl⟩ := h
    cases hw : s.rxshWritten with
    | true =>
      simp only [recvR2, readRxsh_of_written hw]
      exact .r2 hp hw
    | false =>
      simp only [recvR2, readRxsh_of_unwritten hw, raiseFault_eq hf]
      exact .r2Unwritten hp hw

/-- An edge handler step that answered a next state. -/
theorem execIrqEdge_move {s t : State} (h : execIrqEdge s = .next t) : s.faults = [] ∧ Move s .irqEdge t := by
  obtain ⟨hf, he, rfl⟩ := execIrqEdge_next_iff.1 h
  refine ⟨hf, ?_⟩
  cases hw : s.fgPhase.inArmWindow with
  | true =>
    rw [edgeHandler, if_pos hw, raiseFault_eq hf]
    exact .edgeInArmWindow he hw
  | false =>
    rw [edgeHandler, if_neg (by simp [hw]), armReceive_eq]
    exact .edge he hw

/-- A compare handler step that answered a next state. -/
theorem execIrqCc_move {s t : State} (h : execIrqCc s = .next t) : s.faults = [] ∧ Move s .irqCc t := by
  obtain ⟨hf, he, rfl⟩ := execIrqCc_next_iff.1 h
  refine ⟨hf, ?_⟩
  have hq : ccRequested s = true := by
    obtain ⟨_, h1, h2⟩ := ccEnabled_iff.1 he
    simp [ccRequested, h1, h2]
  rw [ccHandler_of_requested hq]
  obtain ⟨h1, e⟩ | ⟨h1, h2, e⟩ | ⟨h1, h2, h3, e⟩ | ⟨h1, h2, h3, e⟩ := ccDispatch_cases { s with ccifg := false } <;>
    rw [e]
  · exact raiseFault_eq (s := { s with ccifg := false }) hf ▸ .ccUnwritten he h1
  · exact raiseFault_eq (s := { s with ccifg := false }) hf ▸ .ccRange he h1 h2
  · obtain ⟨h4, e⟩ | ⟨h4, h5, e⟩ | ⟨h4, h5, e⟩ := transmitBranch_cases s.bitcnt { s with ccifg := false } <;> rw [e]
    · exact .transmitEnd he h1 h3 h4
    · exact .transmitBit he h1 h2 h3 h4 h5
    · exact raiseFault_eq (s := advanceCompare { s with ccifg := false }) hf ▸ .transmitUnwritten he h1 h2 h3 h4 h5
  · obtain ⟨h4, h5, e⟩ | ⟨h4, h5, e⟩ | ⟨h4, e⟩ | ⟨h4, h5, e⟩ := receiveBranch_cases s.bitcnt { s with ccifg := false } <;>
      rw [e]
    · exact .receiveBit he h1 h2 h3 h4 h5
    · exact .receiveEnd he h1 h3 h4 h5
    · exact raiseFault_eq (s := advanceCompare { s with ccifg := false }) hf ▸ .receiveUnwritten he h1 h3 h4
    · rw [raiseFault_eq (by exact hf)]
      exact .receiveEndUnwritten he h1 h3 h4 h5

/-- Everything an operation that answers a next state has done. -/
theorem exec_next_move {i : Instr} {s t : State} (h : exec i s = .next t) : s.faults = [] ∧ Move s i t := by
  cases i with
  | init => exact runCommand_move (c := .init) .direct h
  | send b => exact runCommand_move (c := .send b) .direct h
  | recv => exact runCommand_move (c := .recv) .direct h
  | fg => exact execFg_move h
  | irqEdge => exact execIrqEdge_move h
  | irqCc => exact execIrqCc_move h
  | tick =>
    obtain ⟨hf, rfl⟩ := execTick_next_iff.1 h
    refine ⟨hf, ?_⟩
    cases hm : s.tmode with
    | stop => exact timerTick_stop hm ▸ .tickStopped hm
    | cont =>
      rw [timerTick_cont hm]
      split
      · exact .tickMatch hm (by assumption)
      · exact .tickCount hm (by assumption)
  | line v =>
    obtain ⟨hf, hx, rfl⟩ := execLine_next_iff.1 h
    exact ⟨hf, .line hx⟩

end Sys2Proof.Machine
end

