-- ==== Sys2Proof/Laws/PerInstr.lean ====
section
/-! SUPPORT. Statements made once for each constructor of `Instr`, about the operation as syntax and encoding. -/

namespace Sys2Proof.Laws

/-- The operation's word is its row of the opcode map (30_encoding.md rule R73), with the row's mnemonic, group and
needs, and no other row's. -/
def RowMatch.Statement (i : Instr) : Prop :=
  ∀ r ∈ opcodeTable, r.matchesWord (encode i) = true ↔
    r.mnemonic = i.mnemonic ∧ r.group = i.group ∧ r.needsRx = i.needsRx

theorem RowMatch.init : RowMatch.Statement .init := by unfold RowMatch.Statement; decide

theorem RowMatch.send (byte : Byte) : RowMatch.Statement (.send byte) := by
  unfold RowMatch.Statement; revert byte; decide

theorem RowMatch.recv : RowMatch.Statement .recv := by unfold RowMatch.Statement; decide

theorem RowMatch.fg : RowMatch.Statement .fg := by unfold RowMatch.Statement; decide

theorem RowMatch.irqEdge : RowMatch.Statement .irqEdge := by unfold RowMatch.Statement; decide

theorem RowMatch.irqCc : RowMatch.Statement .irqCc := by unfold RowMatch.Statement; decide

theorem RowMatch.tick : RowMatch.Statement .tick := by unfold RowMatch.Statement; decide

theorem RowMatch.line (level : Bool) : RowMatch.Statement (.line level) := by
  unfold RowMatch.Statement; revert level; decide

end Sys2Proof.Laws
end

