-- ==== Sys2Proof/Tests/Slice0.lean ====
section
/-! SUPPORT. The model's own tests: the well-formedness smoke test, decoding of words written out from the spec, one
step of each operation against 95_test_vectors.md, and a witness for the hypotheses of every statement that has any. -/

namespace Sys2Proof.Tests

open Sys2Proof.Machine

/-! ### Small configurations and states -/

/-- K8 without receive support (95_test_vectors.md rows EN22, IN9). -/
def noRx : Config := { Config.k8 with rxEnabled := false }

/-- The state after INIT from reset, in K8 (95_test_vectors.md row IN1). -/
def live : State := initRegisters State.reset

/-- `live` with FG at a given phase. -/
def atPhase (p : Phase) : State := { live with fgPhase := p }

/-- A transmission armed at counter 0 by S7, nothing sent yet (95_test_vectors.md row TX1, before the match). -/
def armed : State :=
  { live with
    txsh := 0x282#10, txshWritten := true, bitcnt := 10#4, bitcntWritten := true, ccr := 8, tmode := .cont, ccie := true,
    outmod := .set, out := true, fgPhase := .s8, fgByte := 0x41#8 }

/-- A requested compare interrupt of a transmission. -/
def sending (n : Count) : State := { armed with bitcnt := n, ccifg := true }

/-- The state the edge handler leaves at counter 0 (95_test_vectors.md row ED1). -/
def sampling : State :=
  { live with
    receiving := true, rxIe := false, tmode := .cont, ccr := 4, ccie := true, rxsh := 0#10, rxshWritten := true,
    bitcnt := 9#4, bitcntWritten := true, rxIn := false }

/-- A requested compare interrupt of a reception. -/
def receivingAt (n : Count) (v : Shift) (level : Bool) : State :=
  { sampling with bitcnt := n, rxsh := v, rxIn := level, ccifg := true }

/-- A requested edge interrupt, FG at a given phase. -/
def edgePending (p : Phase) : State := { atPhase p with rxIfg := true, rxIn := false }

/-- A projection of the next state of an outcome. -/
def after {α : Type} (f : State → α) (o : Host.Outcome State Fault Refusal) : Option α := (nextState? o).map f

/-! ### Well-formedness: an ill-formed term for each check -/

theorem test_wf_all_with_rx :
    [Instr.init, .send 0xFF#8, .recv, .fg, .irqEdge, .irqCc, .tick, .line true].all (·.wellFormed Config.k8) = true := by
  decide

theorem test_wf_refuses_recv_without_rx : Instr.recv.wellFormed noRx = false := by decide

theorem test_wf_refuses_edge_without_rx : Instr.irqEdge.wellFormed noRx = false := by decide

theorem test_wf_refuses_line_without_rx : (Instr.line false).wellFormed noRx = false := by decide

theorem test_wf_refuses_event_in_program : Instr.tick.wellFormedIn Config.k8 .host = false := by decide

theorem test_wf_refuses_command_in_schedule : (Instr.send 0x41#8).wellFormedIn Config.k8 .event = false := by decide

/-! ### Decoding: words written out bit by bit, op then rsv then imm8 (30_encoding.md rules R70, R73;
95_test_vectors.md section 2.1) -/

theorem test_decode_init : decode Config.k8 0b0001_0000_00000000#16 = .ok .init := by decide

theorem test_decode_send : decode Config.k8 0b0010_0000_01000001#16 = .ok (.send 0x41#8) := by decide

theorem test_decode_send_unsigned : decode Config.k8 0b0010_0000_11111111#16 = .ok (.send 255#8) := by decide

theorem test_decode_recv : decode Config.k8 0b0011_0000_00000000#16 = .ok .recv := by decide

theorem test_decode_fg : decode Config.k8 0b0100_0000_00000000#16 = .ok .fg := by decide

theorem test_decode_irq_edge : decode Config.k8 0b1000_0000_00000000#16 = .ok .irqEdge := by decide

theorem test_decode_irq_cc : decode Config.k8 0b1001_0000_00000000#16 = .ok .irqCc := by decide

theorem test_decode_tick : decode Config.k8 0b1010_0000_00000000#16 = .ok .tick := by decide

theorem test_decode_line_low : decode Config.k8 0b1011_0000_00000000#16 = .ok (.line false) := by decide

theorem test_decode_line_high : decode Config.k8 0b1011_0000_00000001#16 = .ok (.line true) := by decide

/-- Rows EN13 to EN18, EN20 to EN23. -/
theorem test_decode_refusals :
    decode Config.k8 0x1F00#16 = .error .reservedBits ∧ decode Config.k8 0x1001#16 = .error .operand ∧
    decode Config.k8 0xB0FF#16 = .error .operand ∧ decode Config.k8 0x7000#16 = .error .reservedOp ∧
    decode Config.k8 0xC000#16 = .error .reservedOp ∧ decode noRx 0x3000#16 = .error .noRx ∧
    decode noRx 0x8000#16 = .error .noRx ∧ decode noRx 0xB001#16 = .error .noRx := by decide

/-- Rows EN24, EN25. -/
theorem test_decode_group :
    decodeIn .host Config.k8 0x4000#16 = .error .group ∧ decodeIn .event Config.k8 0x2041#16 = .error .group := by
  decide

theorem test_decode_table_word : decodeTableWord 16 0x20FF = some (.send 0xFF#8) := by decide

/-- Rows EN26, EN27. -/
theorem test_ticks_words :
    (AsmLine.ticks 3).words = [0xA000#16, 0xA000#16, 0xA000#16] ∧ (AsmLine.ticks 0).words = [] := by decide

/-- The assembler text of rule R76. -/
theorem test_render : (Instr.send 65#8).render = "SEND 65" ∧ (Instr.line false).render = "@LINE 0" := by decide

/-! ### Configuration (95_test_vectors.md section 2.11) -/

/-- Rows BT1, BT2, BT3, BT4. -/
theorem test_bit_times :
    Config.bitTime { Config.k8 with fClk := 8000000, baud := 115200 } = 69 ∧
    Config.bitTime { Config.k8 with fClk := 1000000, baud := 9600 } = 104 ∧
    Config.halfBitTime { Config.k8 with fClk := 16000000, baud := 9600 } = 833 ∧
    Config.bitTime { Config.k8 with fClk := 23, baud := 2 } = 12 := by decide

/-- Rows BT5 to BT9. -/
theorem test_legality :
    Config.k8.legal = true ∧ Config.legal { Config.k8 with fClk := 100, baud := 100 } = false ∧
    Config.legal { Config.k8 with fClk := 200, baud := 100 } = true ∧
    Config.legal { Config.k8 with halfBitTimeGiven := some 8 } = false ∧
    Config.legal { Config.k8 with fClk := 70000000, baud := 1 } = false := by decide

/-! ### One step of each operation -/

/-- Row IN1. -/
theorem test_init_writes :
    after (fun t => (t.txLine, t.tmode, t.ccie)) (exec .init State.reset) = some (.level true, .stop, false) ∧
    after (fun t => (t.rxIe, t.rxIfg, t.rxCfg, t.initialized)) (exec .init State.reset) =
      some (true, false, true, true) := by decide

/-- Row IN5. -/
theorem test_init_busy : after (·.faults) (exec .init sampling) = some [.initBusy] := by decide

/-- Row SS1. -/
theorem test_send_before_init : after (·.faults) (exec (.send 0x41#8) State.reset) = some [.notInitialized] := by
  decide

/-- Row SS2. -/
theorem test_send_starts : after (fun t => (t.fgByte, t.fgPhase)) (exec (.send 0x41#8) live) = some (0x41#8, .s1) := by
  decide

/-- Row RV1. -/
theorem test_recv_before_init : after (·.faults) (exec .recv State.reset) = some [.notInitialized] := by decide

/-- Row RV2. -/
theorem test_recv_starts : after (·.fgPhase) (exec .recv live) = some .r1 := by decide

/-- Row SF3: the framing of 0x41 at S6. -/
theorem test_fg_frames :
    after (fun t => (t.txsh, t.fgPhase)) (exec .fg { atPhase .s6 with txsh := 0x041#10, txshWritten := true }) =
      some (0x282#10, .s7) := by decide

/-- Row SW7: the compare register of S5 wraps to 0. -/
theorem test_fg_compare_wraps : after (·.ccr) (exec .fg { atPhase .s5 with tar := 0xFFF8 }) = some 0 := by decide

/-- Row ED2: the half-bit sum wraps. -/
theorem test_edge_wraps :
    after (fun t => (t.ccr, t.bitcnt, t.rxsh, t.receiving, t.rxIe, t.rxIfg))
      (exec .irqEdge { edgePending .r1 with tar := 0xFFFE }) = some (2, 9#4, 0#10, true, false, false) := by decide

/-- Row ED6. -/
theorem test_edge_in_arm_window : after (·.faults) (exec .irqEdge (edgePending .s7)) = some [.edgeInArmWindow] := by
  decide

/-- Row TX1. -/
theorem test_cc_transmits :
    after (fun t => (t.outmod, t.txsh, t.bitcnt, t.ccr, t.ccifg)) (exec .irqCc (sending 10#4)) =
      some (.reset, 0x141#10, 9#4, 16, false) := by decide

/-- Row RX1. -/
theorem test_cc_ends_frame :
    after (fun t => (t.rxsh, t.byteReady, t.receiving, t.tmode, t.ccie, t.rxIe))
      (exec .irqCc (receivingAt 0#4 0x082#10 true)) = some (0x041#10, true, false, .stop, false, true) := by decide

/-- Row TK1. -/
theorem test_tick_matches :
    after (fun t => (t.tar, t.ccifg, t.out, t.now)) (exec .tick { armed with tar := 7, outmod := .reset }) =
      some (8, true, false, 1) := by decide

/-- Row TK6: a stopped timer does not match. -/
theorem test_tick_stopped :
    after (fun t => (t.tar, t.ccifg, t.now)) (exec .tick { live with tar := 0xFFFF, ccr := 0 }) =
      some (0xFFFF, false, 1) := by decide

/-- Row LN1. -/
theorem test_line_falls : after (fun t => (t.rxIn, t.rxIfg)) (exec (.line false) live) = some (false, true) := by decide

/-- Row LN5: no edge before INIT. -/
theorem test_line_before_init :
    after (fun t => (t.rxIn, t.rxIfg)) (exec (.line false) State.reset) = some (false, false) := by decide

/-! ### The host's fetch of a single word -/

theorem test_fetch_command :
    after (fun t => (t.initialized, t.program, t.schedule)) (step (State.reset.withFetchWord 16 0x1000)) =
      some (true, [], []) := by decide

theorem test_fetch_event : after (·.now) (step (State.reset.withFetchWord 16 0xA000)) = some 1 := by decide

/-! ### Witnesses: for every statement with hypotheses, a concrete state and operands that meet them together -/

theorem witness_BitTimeRoundsHalfUp :
    (0 < Config.k8.baud) ∧ ∃ c : Config, c.fClk = 8000000 ∧ c.baud = 115200 :=
  ⟨by decide, { Config.k8 with fClk := 8000000, baud := 115200 }, rfl, rfl⟩

theorem witness_IllegalConfigurationRefused :
    ({ live with cfg := { Config.k8 with fClk := 100, baud := 100 } } : State).cfg.legal = false := by decide

theorem witness_ConfigurationNeverChanges :
    (∃ t, exec .tick live = .next t) ∧ ∃ t, step { live with schedule := [0xA000#16] } = .next t :=
  ⟨⟨_, rfl⟩, _, rfl⟩

theorem witness_DecodeEncodeRoundTrip :
    Instr.recv.wellFormed Config.k8 = true ∧ (Instr.send 0xFF#8).wellFormed noRx = true := by decide

theorem witness_EncodeDecodeRoundTrip : decode Config.k8 0xB001#16 = .ok (.line true) := by decide

theorem witness_DecodeFollowsOpcodeMap :
    (⟨"SEND", 0x2000#16, 0xFF00#16, .host, false⟩ : OpcodeRow) ∈ opcodeTable ∧
    (⟨"LINE", 0xB000#16, 0xFFFE#16, .event, true⟩ : OpcodeRow) ∈ opcodeTable := by decide

theorem witness_ReservedWordsRefusedByName :
    decodeIn .host Config.k8 0xF000#16 = .error .reservedOp ∧
    (live.cfg.legal = true ∧ live.faults = [] ∧ live.fgPhase = .idle ∧
      ({ live with schedule := [0x2041#16] } : State).schedule = 0x2041#16 :: [] ∧
      decodeIn .event live.cfg 0x2041#16 = .error .group ∧
      ({ live with program := [0x4000#16] } : State).program = 0x4000#16 :: [] ∧
      decodeIn .host live.cfg 0x4000#16 = .error .group) := by decide

theorem witness_WorkedEncodings : Config.k8.rxEnabled = true := by decide

theorem witness_StepRunsDecodedInstruction :
    (Config.k8.legal = true ∧ live.faults = [] ∧ decodeIn .event Config.k8 0xA000#16 = .ok .tick) ∧
    (({ live with schedule := [0xA000#16] } : State).schedule = 0xA000#16 :: []) ∧
    live.fgPhase = .idle ∧ decodeIn .host Config.k8 0x2041#16 = .ok (.send 0x41#8) ∧
    ({ live with schedule := [0x4000#16], program := [0x2041#16] } : State).schedule = encode .fg :: [] := by decide

theorem witness_PlacedWordRunsNext :
    State.reset.cfg.legal = true ∧ State.reset.faults = [] ∧ decode State.reset.cfg 0x1000#16 = .ok .init ∧
    Instr.init.group = .host ∧ decode State.reset.cfg 0xB001#16 = .ok (.line true) ∧
    (Instr.line true).group = .event := by decide

theorem witness_RecordedFaultEndsTheRun :
    (∃ t, exec (.send 0#8) State.reset = .next t ∧ t.faults ≠ []) ∧
    ({ live with faults := [.initBusy] } : State).faults ≠ [] :=
  ⟨⟨_, rfl, by decide⟩, by decide⟩

theorem witness_ResetAndFirstInitValues :
    (Config.k8.rxEnabled = true ∧ noRx.rxEnabled = false) ∧ State.reset = State.resetWith Config.k8 ResetDraws.zero :=
  ⟨by decide, rfl⟩

/-- Busy by a reception, busy by the enable alone, and not busy although the enable is drawn 1 (row IN4). -/
theorem witness_InitEffect :
    (sampling.faults = [] ∧ sampling.fgPhase = .idle ∧ sampling.initialized = true ∧ sampling.receiving = true) ∧
    (({ live with ccie := true } : State).initialized = true ∧ live.fgPhase = .idle ∧
      ({ live with ccie := true } : State).ccie = true) ∧
    (({ State.reset with ccie := true } : State).initialized = false ∧ State.reset.fgPhase = .idle ∧
      State.reset.faults = []) := by decide

theorem witness_InitIsIdempotent :
    State.reset.receiving = false ∧ ∃ t, exec .init State.reset = .next t ∧ t.faults = [] :=
  ⟨by decide, _, rfl, by decide⟩

theorem witness_NoInterruptBeforeInit :
    (∃ t, exec .tick live = .next t ∧ live.initialized = true) ∧
    (∃ t, exec .init State.reset = .next t ∧ t.faults = []) ∧
    (∃ t, exec .fg { State.reset with program := [0x1000#16] } = .next t ∧ t.faults = [] ∧
      State.reset.fgPhase = .idle ∧ State.reset.initialized = false) ∧
    Instr.irqEdge.agent = .irq ∧ Instr.irqCc.agent = .irq :=
  ⟨⟨_, rfl, by decide⟩, ⟨_, rfl, by decide⟩, ⟨_, rfl, by decide, by decide, by decide⟩, by decide, by decide⟩

theorem witness_SendStart :
    (State.reset.faults = [] ∧ State.reset.fgPhase = .idle ∧ State.reset.initialized = false) ∧
    (live.faults = [] ∧ live.fgPhase = .idle ∧ live.initialized = true) := by decide

theorem witness_RecvStart :
    (({ live with cfg := noRx } : State).faults = [] ∧ ({ live with cfg := noRx } : State).cfg.rxEnabled = false) ∧
    (State.reset.faults = [] ∧ State.reset.cfg.rxEnabled = true ∧ State.reset.fgPhase = .idle ∧
      State.reset.initialized = false) ∧
    (live.faults = [] ∧ live.cfg.rxEnabled = true ∧ live.fgPhase = .idle ∧ live.initialized = true) := by decide

theorem witness_HostCommandsStartOnlyAtIdle :
    (∃ t, Instr.recv.group = .host ∧ exec .recv live = .next t) ∧
    ∃ t, exec .fg { live with program := [0x3000#16] } = .next t ∧ t.program ≠ [0x3000#16] :=
  ⟨⟨_, rfl, rfl⟩, _, rfl, by decide⟩

theorem witness_FgStartsNextCommand :
    (live.faults = [] ∧ live.fgPhase = .idle ∧ Instr.recv.wellFormedIn live.cfg .host = true ∧
      ({ live with program := [0x3000#16] } : State).program = encode .recv :: []) ∧
    live.program = [] := by decide

theorem witness_FgEnabledExactly :
    (∃ t, exec .fg { live with program := [0x3000#16] } = .next t) ∧ (∃ t, exec .fg (atPhase .s2) = .next t) ∧
    (∃ t, exec .fg (atPhase .s8) = .next t) ∧ ∃ t, exec .fg { atPhase .r1 with byteReady := true } = .next t :=
  ⟨⟨_, rfl⟩, ⟨_, rfl⟩, ⟨_, rfl⟩, _, rfl⟩

theorem witness_SendS1LoadsByte : (atPhase .s1).faults = [] ∧ (atPhase .s1).fgPhase = .s1 := by decide

theorem witness_SendS2WaitsForReception :
    ((atPhase .s2).faults = [] ∧ (atPhase .s2).fgPhase = .s2 ∧ (atPhase .s2).receiving = false) ∧
    (({ sampling with fgPhase := .s2 } : State).faults = [] ∧ ({ sampling with fgPhase := .s2 } : State).fgPhase = .s2 ∧
      ({ sampling with fgPhase := .s2 } : State).receiving = true) := by decide

theorem witness_SendS3StartsTimer : (atPhase .s3).faults = [] ∧ (atPhase .s3).fgPhase = .s3 := by decide

theorem witness_SendS4LoadsCounter : (atPhase .s4).faults = [] ∧ (atPhase .s4).fgPhase = .s4 := by decide

theorem witness_SendS5SchedulesCompare : (atPhase .s5).faults = [] ∧ (atPhase .s5).fgPhase = .s5 := by decide

theorem witness_SendS6Frames :
    (({ atPhase .s6 with txshWritten := true } : State).faults = [] ∧
      ({ atPhase .s6 with txshWritten := true } : State).fgPhase = .s6) ∧
    ((atPhase .s6).faults = [] ∧ (atPhase .s6).fgPhase = .s6 ∧ (atPhase .s6).txshWritten = false) := by decide

theorem witness_FrameLayout :
    (0 < 8 ∧ 7 < 8) ∧ ((atPhase .s1).faults = [] ∧ (atPhase .s1).fgPhase = .s1) ∧
    let s : State := { atPhase .s6 with fgByte := 0x41#8, txsh := 0x041#10, txshWritten := true }
    s.faults = [] ∧ s.fgPhase = .s6 ∧ s.txshWritten = true ∧ s.txsh = zext10 s.fgByte := by decide

theorem witness_SendS7ArmsChannel : (atPhase .s7).faults = [] ∧ (atPhase .s7).fgPhase = .s7 := by decide

theorem witness_SendS8WaitsForCompletion :
    ((atPhase .s8).faults = [] ∧ (atPhase .s8).fgPhase = .s8 ∧ (atPhase .s8).ccie = false) ∧
    (armed.faults = [] ∧ armed.fgPhase = .s8 ∧ armed.ccie = true) := by decide

theorem witness_RecvR1WaitsForByte :
    (({ atPhase .r1 with byteReady := true } : State).faults = [] ∧
      ({ atPhase .r1 with byteReady := true } : State).fgPhase = .r1) ∧
    ((atPhase .r1).faults = [] ∧ (atPhase .r1).fgPhase = .r1 ∧ (atPhase .r1).byteReady = false) := by decide

theorem witness_RecvR2TakesByte :
    (({ atPhase .r2 with rxshWritten := true } : State).faults = [] ∧
      ({ atPhase .r2 with rxshWritten := true } : State).fgPhase = .r2) ∧
    ((atPhase .r2).faults = [] ∧ (atPhase .r2).fgPhase = .r2 ∧ (atPhase .r2).rxshWritten = false) := by decide

theorem witness_SendHeldDuringReception :
    ∃ s t : State, s.Inv ∧ s.receiving = true ∧ s.fgPhase ≠ .idle ∧ s.fgPhase ≠ .r1 ∧ s.fgPhase ≠ .r2 ∧
      exec .fg s = .next t :=
  ⟨{ sampling with fgPhase := .s1 }, _, by constructor <;> decide, by decide, by decide, by decide, by decide, rfl⟩

theorem witness_EdgeHandlerEnabledExactly : ∃ t, exec .irqEdge (edgePending .r1) = .next t := ⟨_, rfl⟩

/-- The hypotheses that the clauses about a requested edge handler share. -/
def edgeReady (s : State) : Prop :=
  s.faults = [] ∧ s.initialized = true ∧ s.cfg.rxEnabled = true ∧ s.rxCfg = true ∧ s.rxIe = true ∧ s.rxIfg = true

/-- Both ends of the arming window, and the phases next to it. -/
theorem witness_EdgeHandlerEffect :
    (edgeReady (edgePending .s3) ∧ (edgePending .s3).fgPhase ∈ [Phase.s3, .s4, .s5, .s6, .s7]) ∧
    (edgeReady (edgePending .s7) ∧ (edgePending .s7).fgPhase ∈ [Phase.s3, .s4, .s5, .s6, .s7]) ∧
    (edgeReady (edgePending .s2) ∧ (edgePending .s2).fgPhase ∉ [Phase.s3, .s4, .s5, .s6, .s7]) ∧
    (edgeReady (edgePending .s8) ∧ (edgePending .s8).fgPhase ∉ [Phase.s3, .s4, .s5, .s6, .s7]) := by
  unfold edgeReady; decide

theorem witness_EitherHandlerFirst :
    let s : State := { sending 5#4 with rxIfg := true, rxIn := false }
    s.faults = [] ∧ s.initialized = true ∧ s.rxCfg = true ∧ edgeRequested s = true ∧ ccRequested s = true := by decide

/-- The hypotheses that the clauses about a requested compare handler share. -/
def ccReady (s : State) : Prop :=
  s.faults = [] ∧ s.initialized = true ∧ s.ccie = true ∧ s.ccifg = true

/-- The hypotheses that the clauses about one branch of a requested compare handler share. -/
def branchReady (rx : Bool) (s : State) : Prop :=
  ccReady s ∧ s.bitcntWritten = true ∧ s.bitcnt ≤ 10#4 ∧ s.receiving = rx

/-- Unwritten, 11, 10 in the transmit branch, 10 in the receive branch; and a vector read that answers OTHER. -/
theorem witness_CompareHandlerEntry :
    (ccReady { sending 10#4 with bitcntWritten := false } ∧
      ({ sending 10#4 with bitcntWritten := false } : State).bitcntWritten = false) ∧
    (ccReady (sending 11#4) ∧ (sending 11#4).bitcntWritten = true ∧ 10#4 < (sending 11#4).bitcnt) ∧
    branchReady false (sending 10#4) ∧ branchReady true (receivingAt 10#4 0#10 true) ∧
    ¬(live.ccie = true ∧ live.ccifg = true) := by
  unfold branchReady ccReady; decide

/-- The end, the last bit, the first bit, and an unwritten register. -/
theorem witness_TransmitBranchEffect :
    (branchReady false (sending 0#4) ∧ (sending 0#4).bitcnt = 0#4) ∧
    (branchReady false (sending 1#4) ∧ (sending 1#4).bitcnt ≠ 0#4 ∧ (sending 1#4).txshWritten = true) ∧
    (branchReady false (sending 10#4) ∧ (sending 10#4).bitcnt ≠ 0#4 ∧ (sending 10#4).txshWritten = true) ∧
    (branchReady false { sending 1#4 with txshWritten := false } ∧
      ({ sending 1#4 with txshWritten := false } : State).bitcnt ≠ 0#4) := by
  unfold branchReady ccReady; decide

/-- A shifting sample, a valid end (row RX1), a rejected end (row RX5), and an unwritten register. -/
theorem witness_ReceiveBranchEffect :
    (branchReady true (receivingAt 1#4 0#10 true) ∧ (receivingAt 1#4 0#10 true).rxshWritten = true ∧
      (receivingAt 1#4 0#10 true).bitcnt ≠ 0#4) ∧
    (branchReady true (receivingAt 0#4 0x082#10 true) ∧ (receivingAt 0#4 0x082#10 true).rxshWritten = true ∧
      (receivingAt 0#4 0x082#10 true).bitcnt = 0#4 ∧ (0x082#10 ||| 0x200#10) &&& 0x201#10 = 0x200#10) ∧
    (branchReady true (receivingAt 0#4 0x1FF#10 true) ∧ (receivingAt 0#4 0x1FF#10 true).rxshWritten = true ∧
      (receivingAt 0#4 0x1FF#10 true).bitcnt = 0#4 ∧ (0x1FF#10 ||| 0x200#10) &&& 0x201#10 ≠ 0x200#10) ∧
    (branchReady true { receivingAt 1#4 0#10 true with rxshWritten := false } ∧
      ({ receivingAt 1#4 0#10 true with rxshWritten := false } : State).rxshWritten = false) := by
  unfold branchReady ccReady; decide

theorem witness_InvocationCounts :
    (armed.ccie = true ∧ armed.receiving = false ∧ armed.txshWritten = true ∧ armed.bitcntWritten = true ∧
      armed.bitcnt = 10#4 ∧ armed.tmode = .cont) ∧
    (sampling.ccie = true ∧ sampling.receiving = true ∧ sampling.rxshWritten = true ∧
      sampling.bitcntWritten = true ∧ sampling.bitcnt = 9#4 ∧ sampling.tmode = .cont) ∧
    (List.replicate 10 true).length ≤ 10 ∧ (List.replicate 11 true).length = 11 ∧
    (List.replicate 9 false).length ≤ 9 ∧ (List.replicate 10 false).length = 10 := by decide

theorem witness_FrameRoundTrip :
    sampling.ccie = true ∧ sampling.receiving = true ∧ sampling.rxshWritten = true ∧ sampling.bitcntWritten = true ∧
    sampling.bitcnt = 9#4 ∧ sampling.rxsh = 0#10 := by decide

/-- Stopped; running without a match; a match at the wrap (row TK5). -/
theorem witness_TickEffect :
    (live.faults = [] ∧ live.tmode = .stop) ∧
    (armed.faults = [] ∧ armed.tmode = .cont ∧ (armed.tar + 1) % 2 ^ armed.cfg.timerBits ≠ armed.ccr) ∧
    (0xFFFF + 1) % 2 ^ Config.k8.timerBits = ({ armed with tar := 0xFFFF, ccr := 0 } : State).ccr := by decide

theorem witness_FlagSetOnlyByMatch :
    ∃ t, exec .tick { armed with tar := 7 } = .next t ∧ armed.ccifg = false ∧ t.ccifg = true :=
  ⟨_, rfl, by decide, by decide⟩

/-- The last tick before the match and the match itself; the nearest and the farthest compare value. -/
theorem witness_NextMatchAfterExactly :
    (armed.faults = [] ∧ armed.tmode = .cont ∧ armed.tar < armed.cfg.timerModulus ∧ 8 ≤ armed.cfg.timerModulus ∧
      armed.ccr = timerSum armed.cfg armed.tar 8 ∧ 7 < 8) ∧
    ({ armed with ccr := 1 } : State).ccr = timerSum armed.cfg armed.tar 1 ∧
    ({ armed with ccr := 0 } : State).ccr = timerSum armed.cfg armed.tar armed.cfg.timerModulus := by decide

theorem witness_LineEffect :
    (live.faults = [] ∧ live.cfg.rxEnabled = true) ∧ ({ live with cfg := noRx } : State).cfg.rxEnabled = false := by
  decide

theorem witness_OnlyTicksMoveTime :
    (∃ t, exec .tick armed = .next t) ∧ ∃ t, exec (.line false) live = .next t := ⟨⟨_, rfl⟩, _, rfl⟩

theorem witness_TxLineAndPinWriters :
    State.reset.txDir = .input ∧ (live.txDir = .output ∧ live.txFn = .timer) ∧
    (({ live with txFn := .gpio } : State).txDir = .output ∧ ({ live with txFn := .gpio } : State).txFn = .gpio) ∧
    ∃ t, exec .init State.reset = .next t :=
  ⟨by decide, by decide, by decide, _, rfl⟩

theorem witness_HandlersKeepForeground :
    (∃ t, exec .irqEdge (edgePending .s8) = .next t) ∧ (∃ t, exec .irqCc (sending 10#4) = .next t) ∧
    Instr.irqEdge.agent = .irq ∧ Instr.irqCc.agent = .irq :=
  ⟨⟨_, rfl⟩, ⟨_, rfl⟩, by decide, by decide⟩

theorem witness_TransferFlagWriters :
    (∃ t, exec .irqEdge (edgePending .r1) = .next t ∧ (edgePending .r1).receiving = false ∧ t.receiving = true) ∧
    (∃ t, exec .irqCc (receivingAt 0#4 0x082#10 true) = .next t ∧ t.receiving = false ∧ t.byteReady = true) ∧
    ∃ t, exec .fg { atPhase .r2 with rxshWritten := true, byteReady := true } = .next t ∧ t.byteReady = false :=
  ⟨⟨_, rfl, by decide, by decide⟩, ⟨_, rfl, by decide, by decide⟩, _, rfl, by decide⟩

theorem witness_InterruptEnableWriters :
    (∃ t, exec .irqEdge (edgePending .r1) = .next t ∧ t.rxIe ≠ (edgePending .r1).rxIe ∧ t.ccie = true) ∧
    (∃ t, exec .fg (atPhase .s7) = .next t ∧ (atPhase .s7).ccie = false ∧ t.ccie = true) ∧
    ∃ t, exec .irqCc (sending 0#4) = .next t ∧ (sending 0#4).ccie = true ∧ t.ccie = false :=
  ⟨⟨_, rfl, by decide, by decide⟩, ⟨_, rfl, by decide, by decide⟩, _, rfl, by decide, by decide⟩

theorem witness_QuiescentOnlyTicksAndLines :
    ({ live with schedule := [0xB000#16] } : State).quiescent = true ∧
    ∃ t, step { live with schedule := [0xB000#16] } = .next t := ⟨by decide, _, rfl⟩

theorem witness_InvariantAtReset :
    Config.k8.legal = true ∧ ResetDraws.zero.inRange Config.k8 = true ∧
    ResetDraws.inRange Config.k8 { ResetDraws.zero with tar := 0xFFFF, ccr := 0xFFFF } = true := by decide

theorem witness_StepKeepsInvariant :
    ∃ s t : State, s.Inv ∧ step s = .next t :=
  ⟨{ armed with schedule := [0xA000#16] }, _, by constructor <;> decide, rfl⟩

theorem witness_GuardFaultsUnreachable :
    ∃ s t : State, s.Reachable ∧ t.Reachable ∧ step s = .next t ∧ t.faults = [.notInitialized] :=
  have h : ((State.resetWith Config.k8 ResetDraws.zero).load [0x3000#16] [0x4000#16]).Reachable :=
    .start _ _ _ _ (by decide) (by decide)
  ⟨_, _, h, .step _ _ h rfl, rfl, by decide⟩

/-- INIT, a falling edge and its handler: initialized with the compare interrupt disabled, then enabled; and INIT, SEND,
S1 and S2: at S3. -/
theorem witness_ReachableLineAndPower :
    ∃ s t u : State, (s.Reachable ∧ s.initialized = true ∧ s.ccie = false ∧ s.fgPhase ∉ [Phase.s4, .s5, .s6, .s7]) ∧
      (t.Reachable ∧ t.initialized = true ∧ t.ccie = true) ∧
      u.Reachable ∧ u.initialized = true ∧ u.fgPhase ∈ [Phase.s3, .s4, .s5, .s6, .s7] :=
  have h₀ : ((State.resetWith Config.k8 ResetDraws.zero).load [0x1000#16] [0x4000#16, 0xB000#16, 0x8000#16]).Reachable :=
    .start _ _ _ _ (by decide) (by decide)
  have h₁ := State.Reachable.step _ _ h₀ rfl
  have h₃ := State.Reachable.step _ _ (State.Reachable.step _ _ h₁ rfl) rfl
  have k₀ : ((State.resetWith Config.k8 ResetDraws.zero).load [0x1000#16, 0x2041#16]
      (List.replicate 4 0x4000#16)).Reachable := .start _ _ _ _ (by decide) (by decide)
  have k₂ := State.Reachable.step _ _ (State.Reachable.step _ _ k₀ rfl) rfl
  have k₄ := State.Reachable.step _ _ (State.Reachable.step _ _ k₂ rfl) rfl
  ⟨_, _, _, ⟨h₁, by decide, by decide, by decide⟩, ⟨h₃, by decide, by decide⟩, k₄, by decide, by decide⟩

/-- No latency at S5, the largest latency at every handler. -/
theorem witness_TransmitWaveform :
    ∃ lat : Nat → Nat, (∀ k, lat k < armed.cfg.bitTime) ∧
      armed.ccr = timerSum armed.cfg armed.tar (armed.cfg.bitTime - lat 0) ∧
      armed.cfg.legal = true ∧ armed.faults = [] ∧ armed.initialized = true ∧ armed.receiving = false ∧
      armed.tmode = .cont ∧ armed.ccie = true ∧ armed.ccifg = false ∧ armed.outmod = .set ∧ armed.out = true ∧
      armed.txsh = frameOf 0x41#8 ∧ armed.txshWritten = true ∧ armed.bitcnt = 10#4 ∧ armed.bitcntWritten = true ∧
      armed.tar < armed.cfg.timerModulus ∧ 11 ≤ 11 ∧ 10 < 11 :=
  ⟨fun k => match k with
    | 0 => 0
    | _ + 1 => 7,
    fun k => match k with
    | 0 => show 0 < armed.cfg.bitTime by decide
    | _ + 1 => show 7 < armed.cfg.bitTime by decide,
    by decide⟩

/-- The first handler on time, every later one as late as it may be, every line change in the tick of its sample. -/
theorem witness_ReceiveSchedule :
    ∃ lineAt lat : Nat → Nat, (∀ k, lat k < sampling.cfg.bitTime) ∧
      (∀ k, lineAt k + lat k ≤ sampling.cfg.bitTime + lat (k + 1)) ∧
      sampling.cfg.legal = true ∧ sampling.cfg.rxEnabled = true ∧ sampling.faults = [] ∧
      sampling.initialized = true ∧ sampling.receiving = true ∧ sampling.tmode = .cont ∧ sampling.ccie = true ∧
      sampling.ccifg = false ∧ sampling.rxsh = 0#10 ∧ sampling.rxshWritten = true ∧ sampling.bitcnt = 9#4 ∧
      sampling.bitcntWritten = true ∧ sampling.tar < sampling.cfg.timerModulus ∧
      sampling.ccr = timerSum sampling.cfg sampling.tar sampling.cfg.halfBitTime ∧ sampling.rxIn = false :=
  ⟨fun k => match k with
    | 0 => 15
    | _ + 1 => 8,
    fun k => match k with
    | 0 => 0
    | _ + 1 => 7,
    fun k => match k with
    | 0 => show 0 < sampling.cfg.bitTime by decide
    | _ + 1 => show 7 < sampling.cfg.bitTime by decide,
    fun k => match k with
    | 0 => show 15 + 0 ≤ sampling.cfg.bitTime + 7 by decide
    | _ + 1 => show 8 + 7 ≤ sampling.cfg.bitTime + 7 by decide,
    by decide⟩

end Sys2Proof.Tests
end

section
/-! PROOFS. The scope family (00_scope.md): the bit time of rule R7 and the legal configurations of rule R8. -/

namespace Sys2Proof.Proofs

open Sys2Proof Sys2Proof.Machine

/-! ### The bit time -/

/-- Rounding half up exceeds the quotient by at most half a tick (rule R7). -/
theorem two_baud_mul_bitTime_le (c : Config) : 2 * c.baud * c.bitTime ≤ 2 * c.fClk + c.baud :=
  Nat.mul_div_le _ _

/-- Rounding half up falls short of the quotient by less than half a tick (rule R7). A baud rate of 0 has none. -/
theorem lt_two_baud_mul_bitTime_succ {c : Config} (hbaud : 0 < c.baud) :
    2 * c.fClk + c.baud < 2 * c.baud * (c.bitTime + 1) :=
  Nat.lt_mul_div_succ _ (Nat.mul_pos Nat.two_pos hbaud)

/-- Settles O1: the formula is the definition of the bit time, its bounds are those of the floor division by twice the
baud rate, and the source's example is evaluated. -/
theorem bitTimeRoundsHalfUp : Obligations.BitTimeRoundsHalfUp := by
  unfold Obligations.BitTimeRoundsHalfUp
  refine ⟨fun c hbaud => ⟨rfl, two_baud_mul_bitTime_le c, lt_two_baud_mul_bitTime_succ hbaud⟩, ?_⟩
  intro c hclk hbaud
  simp [Config.bitTime, hclk, hbaud]

/-! ### Legal configurations -/

/-- The check of legality as the list of rule R8. -/
theorem legal_iff (c : Config) :
    c.legal = true ↔
      c.txPinGiven = true ∧ c.channelSupported = true ∧ 0 < c.fClk ∧ 0 < c.baud ∧
      2 ≤ c.bitTime ∧ c.bitTime < 2 ^ c.timerBits ∧ 1 ≤ c.halfBitTime ∧ c.halfBitTime < c.bitTime := by
  simp only [Config.legal, Bool.and_eq_true, decide_eq_true_eq, and_assoc]
  rw [Config.timerModulus]

/-- No step runs in an illegal configuration (rules R8, R201). -/
theorem step_of_illegal {s : State} (h : s.cfg.legal = false) : step s = .refused .config := by
  simp [step, h]

/-- Settles O2: legality is rule R8's list, and `step` checks it before anything else. -/
theorem illegalConfigurationRefused : Obligations.IllegalConfigurationRefused := by
  unfold Obligations.IllegalConfigurationRefused
  exact ⟨legal_iff, fun _ => step_of_illegal⟩

end Sys2Proof.Proofs
end

section
/-! PROOFS. The state family (10_state.md): recorded faults (rule R38), `initialized` (rule R36), the TX pin fields
(rule R34), and the reset and after-INIT columns (rule R42). -/

namespace Sys2Proof.Proofs

open Sys2Proof Sys2Proof.Machine

/-! ### The word of a decoded operation -/

/-- A word is its three fields, one after another (rule R70). -/
theorem opField_append_rsvField_append_immField (w : Word) : opField w ++ (rsvField w ++ immField w) = w := by
  unfold opField rsvField immField
  rw [BitVec.extractLsb'_append_extractLsb'_eq_extractLsb' (by rfl),
    BitVec.extractLsb'_append_extractLsb'_eq_extractLsb' (by rfl)]
  exact BitVec.extractLsb'_eq_self

theorem noOperand_ok_iff {imm : Byte} {i j : Instr} : noOperand imm i = .ok j ↔ imm = 0#8 ∧ i = j := by
  unfold noOperand
  split <;> simp_all

/-- A decoded operation code and operand byte are those of the operation (rules R72, R73). -/
theorem opCode_immOf_of_decodeOp {op : BitVec 4} {imm : Byte} {i : Instr} (h : decodeOp op imm = .ok i) :
    opCode i = op ∧ immOf i = imm := by
  unfold decodeOp at h
  split_ifs at h <;> grind [noOperand_ok_iff, opCode, immOf]

/-- Everything a decoded word has passed (rules R70 to R75). -/
theorem decode_ok_iff {c : Config} {w : Word} {i : Instr} :
    decode c w = .ok i ↔
      decodeOp (opField w) (immField w) = .ok i ∧ rsvField w = 0#4 ∧ i.wellFormed c = true := by
  unfold decode
  cases hd : decodeOp (opField w) (immField w) with
  | error r => simp
  | ok j =>
    simp only [Except.ok.injEq]
    split_ifs <;> grind

/-- A decoded word is the encoding of its operation. -/
theorem encode_of_decode {c : Config} {w : Word} {i : Instr} (h : decode c w = .ok i) : encode i = w := by
  obtain ⟨hd, hrsv, -⟩ := decode_ok_iff.1 h
  obtain ⟨hop, himm⟩ := opCode_immOf_of_decodeOp hd
  rw [encode, hop, himm, ← hrsv, opField_append_rsvField_append_immField]

/-- A word taken from either list is the encoding of its operation. -/
theorem encode_of_decodeIn {g : Group} {c : Config} {w : Word} {i : Instr} (h : decodeIn g c w = .ok i) :
    encode i = w :=
  encode_of_decode (decodeIn_group h).2

/-! ### INIT, and a command taken from the program -/

theorem initCommand_of_busy {s : State} (h : initBusy s = true) : initCommand s = raiseFault .initBusy s := by
  simp [initCommand, h]

theorem initCommand_of_not_busy {s : State} (h : initBusy s = false) : initCommand s = initRegisters s := by
  simp [initCommand, h]

/-- The micro-step at IDLE starts the program's next command (rule R115). -/
theorem microStep_of_idle {s : State} (h : s.fgPhase = .idle) : microStep s = startNextCommand s := by
  simp [microStep, h]

/-- A host command runs directly, or FG took its word from the program. -/
theorem eq_or_program_eq_of_taken {c i : Instr} {s : State} {p : List Word} (h : Taken c s i p) :
    i = c ∨ (i = .fg ∧ s.program = encode c :: p) := by
  cases h with
  | direct => exact .inl rfl
  | started w rest hprog hdec =>
    exact .inr ⟨rfl, by rw [encode_of_decodeIn hdec, hprog]⟩

/-! ### Recorded faults (rule R38) -/

/-- An operation that answers a next state started with no fault recorded (rule R38). -/
theorem faults_eq_nil_of_exec {i : Instr} {s t : State} (h : exec i s = .next t) : s.faults = [] :=
  (exec_next_move h).1

/-- A step that answers a next state started with no fault recorded (rule R38). -/
theorem faults_eq_nil_of_step {s t : State} (h : step s = .next t) : s.faults = [] :=
  (step_next_iff.1 h).2.1

/-- Settles O13: whatever answers a next state started with no fault recorded, so there is none to lose. -/
theorem recordedFaultEndsTheRun : Obligations.RecordedFaultEndsTheRun := by
  unfold Obligations.RecordedFaultEndsTheRun
  refine ⟨fun _ _ => rfl, fun i s t h => ?_, fun i s t hf h => hf (faults_eq_nil_of_exec h),
    fun s t hf h => hf (faults_eq_nil_of_step h)⟩
  rw [faults_eq_nil_of_exec h]
  exact List.nil_subset _

/-! ### `initialized` (rule R36) -/

/-- An INIT that records no fault has run (rule R100). -/
theorem initialized_of_execInit {s t : State} (h : execInit s = .next t) (hlive : t.faults = []) :
    t.initialized = true := by
  obtain ⟨hf, -, rfl⟩ := execInit_next_iff.1 h
  cases hb : initBusy s with
  | true => simp [initCommand_of_busy hb, raiseFault_eq hf] at hlive
  | false => rw [initCommand_of_not_busy hb, initRegisters_eq]

/-- No operation clears `initialized`. -/
theorem initialized_of_move {i : Instr} {s t : State} (h : Move s i t) (hs : s.initialized = true) :
    t.initialized = true := by
  cases h <;> simp [hs]

/-- Before INIT a started command that records no fault is INIT: SEND and RECV record NOT_INITIALIZED. -/
theorem eq_init_of_runCommand {i : Instr} {s t : State} (h : runCommand i s = .next t) (hs : s.initialized = false)
    (hlive : t.faults = []) : i = .init := by
  obtain ⟨hf, -, ⟨rfl, -⟩ | ⟨b, -, rfl⟩ | ⟨-, -, rfl⟩⟩ := runCommand_next_cases h
  · rfl
  · simp [sendCommand, hs, raiseFault_eq hf] at hlive
  · simp [recvCommand, hs, raiseFault_eq hf] at hlive

/-- Before INIT an FG step at IDLE that records no fault took INIT from the program. -/
theorem program_eq_init_of_execFg {s t : State} (h : execFg s = .next t) (hidle : s.fgPhase = .idle)
    (hs : s.initialized = false) (hlive : t.faults = []) : ∃ rest, s.program = encode .init :: rest := by
  have hstart := (execFg_next_iff.1 h).2
  rw [microStep_of_idle hidle] at hstart
  obtain ⟨w, rest, i, hprog, hdec, hrun⟩ := startNextCommand_next hstart
  obtain rfl := eq_init_of_runCommand hrun hs hlive
  exact ⟨rest, by rw [encode_of_decodeIn hdec, hprog]⟩

/-- The IRQ agent steps only after INIT (rules R36, R130, R140). -/
theorem initialized_of_irq {i : Instr} {s t : State} (hi : i.agent = .irq) (h : exec i s = .next t) :
    s.initialized = true := by
  cases i with
  | irqEdge => exact (edgeEnabled_iff.1 (execIrqEdge_next_iff.1 h).2.1).1
  | irqCc => exact (ccEnabled_iff.1 (execIrqCc_next_iff.1 h).2.1).1
  | _ => cases hi

/-- Settles O17: INIT sets `initialized` and nothing clears it; before INIT the other commands record a fault and
neither handler is enabled. -/
theorem noInterruptBeforeInit : Obligations.NoInterruptBeforeInit := by
  unfold Obligations.NoInterruptBeforeInit
  refine ⟨fun _ _ => rfl, fun s t h hlive => initialized_of_execInit h hlive,
    fun i s t h hs => initialized_of_move (exec_next_move h).2 hs,
    fun s t hidle hs h hlive => program_eq_init_of_execFg h hidle hs hlive, fun i s t hi hs h => ?_⟩
  simp [initialized_of_irq hi h] at hs

/-! ### The TX line (rule R34) -/

theorem txLine_of_input {s : State} (hdir : s.txDir = .input) : s.txLine = .z := by
  simp [State.txLine, hdir]

theorem txLine_of_timer {s : State} (hdir : s.txDir = .output) (hfn : s.txFn = .timer) :
    s.txLine = .level s.out := by
  simp [State.txLine, hdir, hfn]

theorem txLine_of_gpio {s : State} (hdir : s.txDir = .output) (hfn : s.txFn = .gpio) :
    s.txLine = .level s.txGpio := by
  simp [State.txLine, hdir, hfn]

/-- Of all the moves only INIT's writes a TX pin field. -/
theorem txPin_eq_or_init_of_move {i : Instr} {s t : State} (h : Move s i t) :
    (t.txDir = s.txDir ∧ t.txFn = s.txFn ∧ t.txGpio = s.txGpio) ∨
      (s.fgPhase = .idle ∧ ∃ p, Taken .init s i p) := by
  cases h
  case init p hidle _ htaken => exact .inr ⟨hidle, p, htaken⟩
  all_goals exact .inl ⟨rfl, rfl, rfl⟩

/-- Settles O50: the level by its three cases, and every operation but INIT leaves the pin fields alone. -/
theorem txLineAndPinWriters : Obligations.TxLineAndPinWriters := by
  unfold Obligations.TxLineAndPinWriters
  refine ⟨fun s => ⟨txLine_of_input, txLine_of_timer, txLine_of_gpio⟩, fun i s t h => ?_⟩
  obtain hsame | ⟨hidle, p, htaken⟩ := txPin_eq_or_init_of_move (exec_next_move h).2
  · exact .inl hsame
  · obtain hinit | ⟨hfg, hprog⟩ := eq_or_program_eq_of_taken htaken
    · exact .inr (.inl hinit)
    · exact .inr (.inr ⟨hfg, hidle, p, hprog⟩)

/-! ### Reset and the first INIT (rule R42) -/

/-- INIT right after reset runs: it finds no transfer in flight, whatever was drawn. -/
theorem exec_init_resetWith (c : Config) (d : ResetDraws) :
    exec .init (State.resetWith c d) = .next (initRegisters (State.resetWith c d)) :=
  execInit_next_iff.2 ⟨rfl, rfl, initCommand_of_not_busy rfl⟩

/-- Settles O14: the column reset is read off `State.resetWith`, the column after INIT off INIT's writes. -/
theorem resetAndFirstInitValues : Obligations.ResetAndFirstInitValues := by
  unfold Obligations.ResetAndFirstInitValues
  rintro c d _ rfl
  refine ⟨by simp [State.resetWith], _, exec_init_resetWith c d, ?_⟩
  cases hrx : c.rxEnabled <;> simp [initRegisters_eq, State.resetWith, hrx]

end Sys2Proof.Proofs
end

section
/-! PROOFS. The encoding family (30_encoding.md): the fields of a word (rule R70), the opcode map (rule R73), the
refused words (rule R75), TICKS (rule R77) and the worked encodings (rule R78). -/

namespace Sys2Proof.Proofs

open Sys2Proof Sys2Proof.Machine

/-! ### The fields of a word (rule R70) -/

@[simp] theorem opField_encode (i : Instr) : opField (encode i) = opCode i :=
  BitVec.extractLsb'_append_eq_left

@[simp] theorem rsvField_encode (i : Instr) : rsvField (encode i) = 0#4 :=
  (BitVec.extractLsb'_append_eq_of_add_le (by decide)).trans BitVec.extractLsb'_append_eq_left

@[simp] theorem immField_encode (i : Instr) : immField (encode i) = immOf i :=
  (BitVec.extractLsb'_append_eq_of_add_le (by decide)).trans BitVec.extractLsb'_append_eq_right

theorem opField_and (v w : Word) : opField (v &&& w) = opField v &&& opField w := BitVec.extractLsb'_and

theorem rsvField_and (v w : Word) : rsvField (v &&& w) = rsvField v &&& rsvField w := BitVec.extractLsb'_and

theorem immField_and (v w : Word) : immField (v &&& w) = immField v &&& immField w := BitVec.extractLsb'_and

/-! ### Decoding an encoded word (rules R70 to R73) -/

theorem decodeOp_opCode_immOf (i : Instr) : decodeOp (opCode i) (immOf i) = .ok i := by
  cases i with
  | line level => cases level <;> rfl
  | _ => rfl

/-- The word of an operation that exists in the configuration decodes to it. -/
theorem decode_encode {c : Config} {i : Instr} (h : i.wellFormed c = true) : decode c (encode i) = .ok i :=
  decode_ok_iff.2 ⟨by simp [decodeOp_opCode_immOf], rsvField_encode i, h⟩

/-- All that an operation can need of the configuration is receive support (rule R73, column needs). -/
theorem wellFormed_iff {c : Config} {i : Instr} :
    i.wellFormed c = true ↔ (i.needsRx = true → c.rxEnabled = true) := by
  cases h : i.needsRx <;> simp [Instr.wellFormed, h]

/-! ### The opcode map (rule R73) -/

theorem matchesWord_iff {r : OpcodeRow} {w : Word} : r.matchesWord w = true ↔ w &&& r.mask = r.pattern := beq_iff_eq

/-- Every mask covers the operation code and the reserved bits, so a match leaves only the operand byte open. -/
theorem fields_of_match {r : OpcodeRow} {w : Word} (hr : r ∈ opcodeTable) (h : w &&& r.mask = r.pattern) :
    opField w = opField r.pattern ∧ rsvField w = 0#4 ∧ immField w &&& immField r.mask = immField r.pattern := by
  have hmask : ∀ r ∈ opcodeTable, opField r.mask = BitVec.allOnes 4 ∧ rsvField r.mask = BitVec.allOnes 4 ∧
      rsvField r.pattern = 0#4 := by decide
  obtain ⟨hop, hrsv, hzero⟩ := hmask r hr
  rw [← hzero, ← h, opField_and, rsvField_and, immField_and, hop, hrsv, BitVec.and_allOnes, BitVec.and_allOnes]
  exact ⟨rfl, rfl, rfl⟩

theorem zero_eq_of_and_full {imm : Byte} (h : imm &&& 0xFF#8 = 0#8) : 0#8 = imm :=
  h.symm.trans BitVec.and_allOnes

/-- LINE's mask leaves only the level open (rule R72). -/
theorem exists_level_of_and {imm : Byte} (h : imm &&& 0xFE#8 = 0#8) : ∃ v, immOf (.line v) = imm := by
  revert imm; decide

/-- An operand byte that a row's mask lets through is the operand byte of one of the row's operations. -/
theorem exists_instr_of_operand {r : OpcodeRow} {imm : Byte} (hr : r ∈ opcodeTable)
    (h : imm &&& immField r.mask = immField r.pattern) : ∃ i, opCode i = opField r.pattern ∧ immOf i = imm := by
  simp only [opcodeTable, List.mem_cons, List.not_mem_nil, or_false] at hr
  obtain rfl | rfl | rfl | rfl | rfl | rfl | rfl | rfl := hr
  · exact ⟨.init, rfl, zero_eq_of_and_full h⟩
  · exact ⟨.send imm, rfl, rfl⟩
  · exact ⟨.recv, rfl, zero_eq_of_and_full h⟩
  · exact ⟨.fg, rfl, zero_eq_of_and_full h⟩
  · exact ⟨.irqEdge, rfl, zero_eq_of_and_full h⟩
  · exact ⟨.irqCc, rfl, zero_eq_of_and_full h⟩
  · exact ⟨.tick, rfl, zero_eq_of_and_full h⟩
  · obtain ⟨v, hv⟩ := exists_level_of_and h
    exact ⟨.line v, rfl, hv⟩

/-- A word that matches a row is the encoding of an operation. -/
theorem exists_encode_eq_of_match {r : OpcodeRow} {w : Word} (hr : r ∈ opcodeTable) (h : w &&& r.mask = r.pattern) :
    ∃ i, encode i = w := by
  obtain ⟨hop, hrsv, himm⟩ := fields_of_match hr h
  obtain ⟨i, hcode, hoperand⟩ := exists_instr_of_operand hr himm
  exact ⟨i, by rw [encode, hcode, hoperand, ← hop, ← hrsv, opField_append_rsvField_append_immField]⟩

/-- An operation's word matches its own row of the opcode map and no other. -/
theorem rowMatch (i : Instr) : Laws.RowMatch.Statement i := by
  cases i with
  | init => exact Laws.RowMatch.init
  | send byte => exact Laws.RowMatch.send byte
  | recv => exact Laws.RowMatch.recv
  | fg => exact Laws.RowMatch.fg
  | irqEdge => exact Laws.RowMatch.irqEdge
  | irqCc => exact Laws.RowMatch.irqCc
  | tick => exact Laws.RowMatch.tick
  | line level => exact Laws.RowMatch.line level

/-- The operations that need receive support, by mnemonic (rule R73, column needs). -/
theorem needsRx_iff_mnemonic (i : Instr) : i.needsRx = decide (i.mnemonic ∈ ["RECV", "IRQ_EDGE", "LINE"]) := by
  cases i <;> rfl

/-- The mnemonic fixes what is needed: the opcode map's column needs is that of the operations. -/
theorem needsRx_eq_of_mnemonic_eq {r : OpcodeRow} {i : Instr} (hr : r ∈ opcodeTable) (h : i.mnemonic = r.mnemonic) :
    i.needsRx = r.needsRx := by
  have hrow : ∀ r ∈ opcodeTable, r.needsRx = decide (r.mnemonic ∈ ["RECV", "IRQ_EDGE", "LINE"]) := by decide
  rw [hrow r hr, needsRx_iff_mnemonic, h]

/-- Settles O7: a decoded word is the encoding of its operation, a matching word is the encoding of some operation,
and an encoding matches exactly the row with its operation's mnemonic, group and needs. -/
theorem decodeFollowsOpcodeMap : Obligations.DecodeFollowsOpcodeMap := by
  unfold Obligations.DecodeFollowsOpcodeMap
  intro c w r hr
  constructor
  · rintro ⟨i, hdec, hmnemonic, hgroup, -⟩
    have hneeds := needsRx_eq_of_mnemonic_eq hr hmnemonic
    obtain ⟨-, -, hwf⟩ := decode_ok_iff.1 hdec
    rw [← encode_of_decode hdec]
    exact ⟨matchesWord_iff.1 ((rowMatch i r hr).2 ⟨hmnemonic.symm, hgroup.symm, hneeds.symm⟩),
      hneeds ▸ wellFormed_iff.1 hwf⟩
  · rintro ⟨hmatch, hrx⟩
    obtain ⟨i, rfl⟩ := exists_encode_eq_of_match hr hmatch
    obtain ⟨hmnemonic, hgroup, hneeds⟩ := (rowMatch i r hr).1 (matchesWord_iff.2 hmatch)
    exact ⟨i, decode_encode (wellFormed_iff.2 (hneeds ▸ hrx)), hmnemonic.symm, hgroup.symm, (immField_encode i).symm⟩

/-! ### Refused words (rule R75) -/

theorem noOperand_error_iff {imm : Byte} {i : Instr} {r : WordRefusal} :
    noOperand imm i = .error r ↔ imm ≠ 0#8 ∧ r = .operand := by
  by_cases himm : imm = 0#8 <;> simp [noOperand, himm, eq_comm]

/-- The operation codes: those without an operand, SEND, LINE and the reserved ones (rules R72, R75). -/
theorem opcode_cases (op : BitVec 4) :
    op ∈ [0x1#4, 0x3#4, 0x4#4, 0x8#4, 0x9#4, 0xA#4] ∨ op = 0x2#4 ∨ op = 0xB#4 ∨
      op ∈ [0x0#4, 0x5#4, 0x6#4, 0x7#4, 0xC#4, 0xD#4, 0xE#4, 0xF#4] := by
  revert op; decide

theorem exists_decodeOp_eq_noOperand {op : BitVec 4} (imm : Byte)
    (h : op ∈ [0x1#4, 0x3#4, 0x4#4, 0x8#4, 0x9#4, 0xA#4]) : ∃ i, decodeOp op imm = noOperand imm i := by
  simp only [List.mem_cons, List.not_mem_nil, or_false] at h
  obtain rfl | rfl | rfl | rfl | rfl | rfl := h <;> exact ⟨_, rfl⟩

theorem decodeOp_of_reserved {op : BitVec 4} (imm : Byte)
    (h : op ∈ [0x0#4, 0x5#4, 0x6#4, 0x7#4, 0xC#4, 0xD#4, 0xE#4, 0xF#4]) : decodeOp op imm = .error .reservedOp := by
  simp only [List.mem_cons, List.not_mem_nil, or_false] at h
  obtain rfl | rfl | rfl | rfl | rfl | rfl | rfl | rfl := h <;> rfl

/-- An operand byte above 1 has one of its bits 7:1 set. -/
theorem upperBits_ne_zero {imm : Byte} (hlow : imm ≠ 0#8) (hhigh : imm ≠ 1#8) : imm.extractLsb' 1 7 ≠ 0#7 := by
  revert imm; decide

/-- LINE's operand byte is its level, so a refused one is above 1 (rule R72). -/
theorem operand_of_decodeOp_line_error {imm : Byte} {r : WordRefusal} (h : decodeOp 0xB#4 imm = .error r) :
    r = .operand ∧ imm.extractLsb' 1 7 ≠ 0#7 := by
  by_cases hlow : imm = 0#8
  · subst hlow
    cases h
  by_cases hhigh : imm = 1#8
  · subst hhigh
    cases h
  · have hrefused : decodeOp 0xB#4 imm = .error .operand := (if_neg hlow).trans (if_neg hhigh)
    cases hrefused.symm.trans h
    exact ⟨rfl, upperBits_ne_zero hlow hhigh⟩

/-- A refusal by operation code or operand byte applies to the word. -/
theorem applies_of_decodeOp_error {c : Config} {g : Group} {w : Word} {r : WordRefusal}
    (h : decodeOp (opField w) (immField w) = .error r) : r.applies c g w := by
  obtain hnone | hsend | hline | hreserved := opcode_cases (opField w)
  · obtain ⟨i, hdec⟩ := exists_decodeOp_eq_noOperand (immField w) hnone
    obtain ⟨himm, rfl⟩ := noOperand_error_iff.1 (hdec ▸ h)
    exact .inl ⟨hnone, himm⟩
  · rw [hsend] at h
    cases h
  · rw [hline] at h
    obtain ⟨rfl, hbits⟩ := operand_of_decodeOp_line_error h
    exact .inr ⟨hline, hbits⟩
  · rw [decodeOp_of_reserved (immField w) hreserved] at h
    cases h
    exact hreserved

theorem decode_error_iff {c : Config} {w : Word} {r : WordRefusal} :
    decode c w = .error r ↔
      decodeOp (opField w) (immField w) = .error r ∨
      ∃ i, decodeOp (opField w) (immField w) = .ok i ∧
        ((rsvField w ≠ 0#4 ∧ r = .reservedBits) ∨ (rsvField w = 0#4 ∧ i.wellFormed c = false ∧ r = .noRx)) := by
  unfold decode
  cases decodeOp (opField w) (immField w) with
  | error q => simp
  | ok i => dsimp only; split_ifs <;> grind

theorem decodeIn_error_iff {g : Group} {c : Config} {w : Word} {r : WordRefusal} :
    decodeIn g c w = .error r ↔ decode c w = .error r ∨ ∃ i, decode c w = .ok i ∧ i.group ≠ g ∧ r = .group := by
  unfold decodeIn
  cases decode c w with
  | error q => simp
  | ok i => dsimp only; split_ifs <;> grind

theorem needsRx_iff_opCode (i : Instr) : i.needsRx = true ↔ opCode i ∈ [0x3#4, 0x8#4, 0xB#4] := by
  cases i <;> simp [Instr.needsRx, opCode]

theorem wellFormed_eq_false_iff {c : Config} {i : Instr} :
    i.wellFormed c = false ↔ i.needsRx = true ∧ c.rxEnabled = false := by
  simp [Instr.wellFormed]

/-- A refusal of the decoder applies to the word. -/
theorem applies_of_decode_error {c : Config} {g : Group} {w : Word} {r : WordRefusal} (h : decode c w = .error r) :
    r.applies c g w := by
  obtain hop | ⟨i, hdec, ⟨hrsv, rfl⟩ | ⟨-, hwf, rfl⟩⟩ := decode_error_iff.1 h
  · exact applies_of_decodeOp_error hop
  · exact hrsv
  · obtain ⟨hneeds, hrx⟩ := wellFormed_eq_false_iff.1 hwf
    rw [WordRefusal.applies, ← (opCode_immOf_of_decodeOp hdec).1]
    exact ⟨(needsRx_iff_opCode i).1 hneeds, hrx⟩

/-- The operation codes of the host commands (rule R71). -/
theorem group_eq_host_iff_opCode (i : Instr) : i.group = .host ↔ opCode i ∈ [0x1#4, 0x2#4, 0x3#4] := by
  cases i <;> simp [Instr.group, opCode]

/-- The operation codes of the events (rule R71). -/
theorem group_eq_event_iff_opCode (i : Instr) :
    i.group = .event ↔ opCode i ∈ [0x4#4, 0x8#4, 0x9#4, 0xA#4, 0xB#4] := by
  cases i <;> simp [Instr.group, opCode]

theorem group_applies_encode_iff {c : Config} {g : Group} {i : Instr} :
    WordRefusal.group.applies c g (encode i) ↔ i.group ≠ g := by
  rw [WordRefusal.applies, opField_encode, ← group_eq_host_iff_opCode, ← group_eq_event_iff_opCode]
  cases g <;> cases i.group <;> decide

/-- A refusal of a word for its list applies to the word. -/
theorem applies_of_decodeIn_error {c : Config} {g : Group} {w : Word} {r : WordRefusal}
    (h : decodeIn g c w = .error r) : r.applies c g w := by
  obtain hdec | ⟨i, hdec, hgroup, rfl⟩ := decodeIn_error_iff.1 h
  · exact applies_of_decode_error hdec
  · rw [← encode_of_decode hdec]
    exact group_applies_encode_iff.2 hgroup

theorem not_operand_applies_encode {c : Config} {g : Group} (i : Instr) :
    ¬ WordRefusal.operand.applies c g (encode i) := by
  rw [WordRefusal.applies, opField_encode, immField_encode]
  cases i with
  | send b => simp [opCode]
  | line v => cases v <;> decide
  | _ => decide

theorem opCode_not_reserved (i : Instr) : opCode i ∉ [0x0#4, 0x5#4, 0x6#4, 0x7#4, 0xC#4, 0xD#4, 0xE#4, 0xF#4] := by
  cases i <;> simp [opCode]

/-- No refusal applies to the word of an operation that exists, in a list of its group. -/
theorem not_applies_encode {c : Config} {i : Instr} (hwf : i.wellFormed c = true) (r : WordRefusal) :
    ¬ r.applies c i.group (encode i) := by
  cases r with
  | reservedOp => exact fun h => opCode_not_reserved i (opField_encode i ▸ h)
  | reservedBits => exact fun h => h (rsvField_encode i)
  | operand => exact not_operand_applies_encode i
  | noRx =>
    rintro ⟨hop, hrx⟩
    rw [opField_encode] at hop
    simp [wellFormed_eq_false_iff.2 ⟨(needsRx_iff_opCode i).2 hop, hrx⟩] at hwf
  | group => exact fun h => group_applies_encode_iff.1 h rfl

/-- A word to which a refusal applies is refused. -/
theorem exists_decodeIn_error_of_applies {c : Config} {g : Group} {w : Word} {r : WordRefusal}
    (h : r.applies c g w) : ∃ q, decodeIn g c w = .error q := by
  cases hdec : decodeIn g c w with
  | error q => exact ⟨q, rfl⟩
  | ok i =>
    obtain ⟨rfl, hi⟩ := decodeIn_group hdec
    obtain ⟨-, -, hwf⟩ := decode_ok_iff.1 hi
    exact absurd (encode_of_decode hi ▸ h) (not_applies_encode hwf r)

/-- A refused event word has no step. -/
theorem step_of_refused {s : State} {w : Word} {rest : List Word} {r : WordRefusal} (hlegal : s.cfg.legal = true)
    (hlive : s.faults = []) (hs : s.schedule = w :: rest) (h : decodeIn .event s.cfg w = .error r) :
    step s = .refused (.word r) := by
  simp [step, hlegal, hlive, runNextEvent, fetchEvent, hs, h]

/-- FG does not start a refused command word. -/
theorem exec_fg_of_refused {s : State} {w : Word} {rest : List Word} {r : WordRefusal} (hlive : s.faults = [])
    (hidle : s.fgPhase = .idle) (hs : s.program = w :: rest) (h : decodeIn .host s.cfg w = .error r) :
    exec .fg s = .refused (.word r) := by
  simp [exec, execFg, hlive, microStep_of_idle hidle, startNextCommand, fetchCommand, hs, h]

/-- Settles O8: no condition holds of the word of an operation that decodes, every refusal of the decoder is traced to
its condition, and the fetch passes the refusal on. -/
theorem reservedWordsRefusedByName : Obligations.ReservedWordsRefusedByName := by
  unfold Obligations.ReservedWordsRefusedByName
  refine ⟨fun c g w => ⟨⟨?_, ?_⟩, fun _ => applies_of_decodeIn_error⟩, fun _ _ _ _ => step_of_refused,
    fun _ _ _ _ => exec_fg_of_refused⟩
  · exact fun ⟨_, h⟩ => exists_decodeIn_error_of_applies h
  · exact fun ⟨r, h⟩ => ⟨r, applies_of_decodeIn_error h⟩

/-! ### The worked encodings and TICKS (rules R77, R78) -/

theorem wellFormed_of_rxEnabled {c : Config} (hrx : c.rxEnabled = true) (i : Instr) : i.wellFormed c = true :=
  wellFormed_iff.2 fun _ => hrx

/-- Settles O9: the encodings are evaluated, their decoding is the round trip, and the two refusals are by the reserved
bits and by LINE's operand. -/
theorem workedEncodings : Obligations.WorkedEncodings := by
  unfold Obligations.WorkedEncodings
  refine ⟨rfl, rfl, rfl, rfl, rfl, rfl, rfl, rfl, rfl, rfl, fun c hrx => ?_⟩
  have hdec : ∀ i, decode c (encode i) = .ok i := fun i => decode_encode (wellFormed_of_rxEnabled hrx i)
  exact ⟨hdec .init, hdec (.send 0x41#8), hdec (.send 0xFF#8), hdec .recv, hdec .fg, hdec .irqEdge, hdec .irqCc,
    hdec .tick, hdec (.line false), hdec (.line true),
    decode_error_iff.2 (.inr ⟨.send 0x41#8, rfl, .inl ⟨by decide, rfl⟩⟩), decode_error_iff.2 (.inl rfl)⟩

/-- Settles O10: the line expands to `n` TICK, and each is encoded by itself. -/
theorem ticksPseudoInstruction : Obligations.TicksPseudoInstruction := by
  unfold Obligations.TicksPseudoInstruction
  intro n
  have hword : encode .tick = 0xA000#16 := rfl
  rw [AsmLine.words, AsmLine.expand, List.map_replicate, hword]

end Sys2Proof.Proofs
end

section
/-! PROOFS. The host operations family (40_host_operations.md): INIT (rule R100), the starting steps of SEND and RECV
(rules R101, R110), each micro-step of FG (rules R102 to R109, R111, R112), and where commands start (rule R116). -/

namespace Sys2Proof.Proofs

open Sys2Proof Sys2Proof.Machine

/-! ### Where a host command starts (rule R116) -/

/-- The operations of the group `host` are executed at IDLE only. -/
theorem fgPhase_eq_idle_of_host {i : Instr} {s t : State} (hi : i.group = .host) (h : exec i s = .next t) :
    s.fgPhase = .idle := by
  cases i with
  | init => exact (execInit_next_iff.1 h).2.1
  | send b => exact (execSend_next_iff.1 h).2.1
  | recv => exact (execRecv_next_iff.1 h).2.2.1
  | _ => cases hi

/-- A command executed directly leaves the program as it is. -/
theorem eq_fg_of_taken {c i : Instr} {s : State} {p : List Word} (h : Taken c s i p) (hp : p ≠ s.program) :
    i = .fg := by
  cases h with
  | direct => exact absurd rfl hp
  | started => rfl

/-- Of all the moves only those of a host command change the program. -/
theorem taken_of_move_of_program_ne {i : Instr} {s t : State} (h : Move s i t) (hp : t.program ≠ s.program) :
    s.fgPhase = .idle ∧ ∃ c, Taken c s i t.program := by
  cases h with
  | initBusy htaken hidle => exact ⟨hidle, _, htaken⟩
  | init htaken hidle => exact ⟨hidle, _, htaken⟩
  | sendNotInitialized htaken hidle => exact ⟨hidle, _, htaken⟩
  | send htaken hidle => exact ⟨hidle, _, htaken⟩
  | recvNotInitialized htaken _ hidle => exact ⟨hidle, _, htaken⟩
  | recv htaken _ hidle => exact ⟨hidle, _, htaken⟩
  | _ => exact absurd rfl hp

/-- Settles O20: each command checks for IDLE, and among the moves only a command started by FG leaves another
program. -/
theorem hostCommandsStartOnlyAtIdle : Obligations.HostCommandsStartOnlyAtIdle := by
  unfold Obligations.HostCommandsStartOnlyAtIdle
  refine ⟨fun i s t hi h => fgPhase_eq_idle_of_host hi h, fun i s t h hp => ?_⟩
  obtain ⟨hidle, c, htaken⟩ := taken_of_move_of_program_ne (exec_next_move h).2 hp
  exact ⟨eq_fg_of_taken htaken hp, hidle⟩

/-! ### INIT and the starting steps (rules R100, R101, R110) -/

theorem initBusy_iff {s : State} :
    initBusy s = true ↔ s.initialized = true ∧ (s.receiving = true ∨ s.ccie = true) := by
  simp [initBusy]

theorem exec_init_of_idle {s : State} (hlive : s.faults = []) (hidle : s.fgPhase = .idle) :
    exec .init s = .next (initCommand s) :=
  execInit_next_iff.2 ⟨hlive, hidle, rfl⟩

theorem exec_send_of_idle {b : Byte} {s : State} (hlive : s.faults = []) (hidle : s.fgPhase = .idle) :
    exec (.send b) s = .next (sendCommand b s) :=
  execSend_next_iff.2 ⟨hlive, hidle, rfl⟩

theorem exec_recv_of_idle {s : State} (hlive : s.faults = []) (hrx : s.cfg.rxEnabled = true)
    (hidle : s.fgPhase = .idle) : exec .recv s = .next (recvCommand s) :=
  execRecv_next_iff.2 ⟨hlive, hrx, hidle, rfl⟩

/-- There is no RECV without receive support (rule R75). -/
theorem exec_recv_of_no_rx {s : State} (hlive : s.faults = []) (hrx : s.cfg.rxEnabled = false) :
    exec .recv s = .refused (.word .noRx) := by
  simp [exec, execRecv, hlive, hrx]

/-- Settles O15: the busy check is rule R100's condition; past it INIT's writes are those of `initRegisters_eq`, where
receive support decides the three RX elements. -/
theorem initEffect : Obligations.InitEffect := by
  unfold Obligations.InitEffect
  intro s hlive hidle
  rw [← initBusy_iff, Bool.not_eq_true, exec_init_of_idle hlive hidle]
  constructor
  · intro hbusy
    rw [initCommand_of_busy hbusy, raiseFault_eq hlive]
  · intro hfree
    rw [initCommand_of_not_busy hfree, initRegisters_eq]
    cases s.cfg.rxEnabled <;> simp

/-- Settles O18: SEND runs at IDLE, and `initialized` decides between its fault and its writes. -/
theorem sendStart : Obligations.SendStart := by
  unfold Obligations.SendStart
  intro b s hlive hidle
  rw [exec_send_of_idle hlive hidle]
  constructor
  · intro hinit
    simp [sendCommand, hinit, raiseFault_eq hlive]
  · intro hinit
    simp [sendCommand, hinit]

/-- Settles O19: RECV runs at IDLE where there is receive support, and `initialized` decides between its fault and its
write. -/
theorem recvStart : Obligations.RecvStart := by
  unfold Obligations.RecvStart
  intro s hlive
  refine ⟨exec_recv_of_no_rx hlive, fun hrx hidle hinit => ?_, fun hrx hidle hinit => ?_⟩ <;>
    rw [exec_recv_of_idle hlive hrx hidle]
  · simp [recvCommand, hinit, raiseFault_eq hlive]
  · simp [recvCommand, hinit]

/-! ### FG, row by row of the table of rule R115 -/

@[simp] theorem holdUntil_true (t : State) : holdUntil true t = .next t := rfl

@[simp] theorem holdUntil_false (t : State) : holdUntil false t = .refused .fgHold := rfl

section
variable {s : State} (hlive : s.faults = [])
include hlive

theorem exec_fg_of_live : exec .fg s = microStep s := whenLive_of_live hlive

theorem exec_fg_of_s1 (h : s.fgPhase = .s1) : exec .fg s = .next (sendS1 s) := by
  rw [exec_fg_of_live hlive, microStep, h]

theorem exec_fg_of_s2 (h : s.fgPhase = .s2) : exec .fg s = holdUntil (!s.receiving) (sendS2 s) := by
  rw [exec_fg_of_live hlive, microStep, h]

theorem exec_fg_of_s3 (h : s.fgPhase = .s3) : exec .fg s = .next (sendS3 s) := by
  rw [exec_fg_of_live hlive, microStep, h]

theorem exec_fg_of_s4 (h : s.fgPhase = .s4) : exec .fg s = .next (sendS4 s) := by
  rw [exec_fg_of_live hlive, microStep, h]

theorem exec_fg_of_s5 (h : s.fgPhase = .s5) : exec .fg s = .next (sendS5 s) := by
  rw [exec_fg_of_live hlive, microStep, h]

theorem exec_fg_of_s6 (h : s.fgPhase = .s6) : exec .fg s = .next (sendS6 s) := by
  rw [exec_fg_of_live hlive, microStep, h]

theorem exec_fg_of_s7 (h : s.fgPhase = .s7) : exec .fg s = .next (sendS7 s) := by
  rw [exec_fg_of_live hlive, microStep, h]

theorem exec_fg_of_s8 (h : s.fgPhase = .s8) : exec .fg s = holdUntil (!s.ccie) (sendS8 s) := by
  rw [exec_fg_of_live hlive, microStep, h]

theorem exec_fg_of_r1 (h : s.fgPhase = .r1) : exec .fg s = holdUntil s.byteReady (recvR1 s) := by
  rw [exec_fg_of_live hlive, microStep, h]

theorem exec_fg_of_r2 (h : s.fgPhase = .r2) : exec .fg s = .next (recvR2 s) := by
  rw [exec_fg_of_live hlive, microStep, h]

end

/-! ### The micro-steps of SEND (rules R102 to R109) -/

/-- Settles O23: the row of S1, its two writes in one record. -/
theorem sendS1LoadsByte : Obligations.SendS1LoadsByte := by
  unfold Obligations.SendS1LoadsByte
  intro s hlive hp
  rw [exec_fg_of_s1 hlive hp, sendS1, writeTxsh, zext10]

/-- Settles O24: the row of S2, and `receiving` decides the hold. -/
theorem sendS2WaitsForReception : Obligations.SendS2WaitsForReception := by
  unfold Obligations.SendS2WaitsForReception
  intro s hlive hp
  rw [exec_fg_of_s2 hlive hp]
  constructor
  · intro hfree
    simp [hfree, sendS2]
  · intro hrecv
    simp [hrecv]

/-- Settles O25: the row of S3. -/
theorem sendS3StartsTimer : Obligations.SendS3StartsTimer := by
  unfold Obligations.SendS3StartsTimer
  intro s hlive hp
  rw [exec_fg_of_s3 hlive hp, sendS3]

/-- Settles O26: the row of S4, the counter and its mark in one record. -/
theorem sendS4LoadsCounter : Obligations.SendS4LoadsCounter := by
  unfold Obligations.SendS4LoadsCounter
  intro s hlive hp
  rw [exec_fg_of_s4 hlive hp, sendS4, writeBitcnt]

/-- Settles O27: the row of S5; `timerSum` is the sum modulo 2^W. -/
theorem sendS5SchedulesCompare : Obligations.SendS5SchedulesCompare := by
  unfold Obligations.SendS5SchedulesCompare
  intro s hlive hp
  rw [exec_fg_of_s5 hlive hp, sendS5, setCompare, timerSum, Config.timerModulus]

/-- S6 on a written register: the written mark stays set. -/
theorem sendS6_of_written {s : State} (hw : s.txshWritten = true) :
    sendS6 s = { s with txsh := frameBits s.txsh, fgPhase := .s7 } := by
  simp [sendS6, writeTxsh, hw]

theorem sendS6_of_unwritten {s : State} (hw : s.txshWritten = false) : sendS6 s = raiseFault .unwritten s :=
  readTxsh_of_unwritten hw

/-- Settles O28: the row of S6, and the written mark of `txsh` decides between the framing and the fault. -/
theorem sendS6Frames : Obligations.SendS6Frames := by
  unfold Obligations.SendS6Frames
  intro s hlive hp
  rw [exec_fg_of_s6 hlive hp]
  constructor
  · intro hw
    rw [sendS6_of_written hw, frameBits]
  · intro hw
    rw [sendS6_of_unwritten hw, raiseFault_eq hlive]

/-- Settles O30: the row of S7, and P_ARM_CLEARS_FLAG decides what becomes of a pending flag. -/
theorem sendS7ArmsChannel : Obligations.SendS7ArmsChannel := by
  unfold Obligations.SendS7ArmsChannel
  intro s hlive hp
  rw [exec_fg_of_s7 hlive hp, sendS7_eq]
  cases s.cfg.armClearsFlag <;> simp

/-- Settles O31: the row of S8, and `ccie` decides the hold. -/
theorem sendS8WaitsForCompletion : Obligations.SendS8WaitsForCompletion := by
  unfold Obligations.SendS8WaitsForCompletion
  intro s hlive hp
  rw [exec_fg_of_s8 hlive hp]
  constructor
  · intro hdone
    simp [hdone, sendS8]
  · intro hsending
    simp [hsending]

/-! ### The micro-steps of RECV (rules R111, R112) -/

/-- Settles O32: the row of R1, and `byte_ready` decides the hold. -/
theorem recvR1WaitsForByte : Obligations.RecvR1WaitsForByte := by
  unfold Obligations.RecvR1WaitsForByte
  intro s hlive hp
  rw [exec_fg_of_r1 hlive hp]
  constructor
  · intro hready
    simp [hready, recvR1]
  · intro hempty
    simp [hempty]

/-- The returned byte is bits 7:0 of the register (rule R112). -/
theorem resultByte_eq_extractLsb' (v : Shift) : resultByte v = v.extractLsb' 0 8 :=
  BitVec.setWidth_eq_extractLsb' (by decide)

theorem recvR2_of_written {s : State} (hw : s.rxshWritten = true) :
    recvR2 s = { s with fgResult := resultByte s.rxsh, byteReady := false, fgPhase := .idle } :=
  readRxsh_of_written hw

theorem recvR2_of_unwritten {s : State} (hw : s.rxshWritten = false) : recvR2 s = raiseFault .unwritten s :=
  readRxsh_of_unwritten hw

/-- Settles O33: the row of R2, and the written mark of `rxsh` decides between the byte and the fault. -/
theorem recvR2TakesByte : Obligations.RecvR2TakesByte := by
  unfold Obligations.RecvR2TakesByte
  intro s hlive hp
  rw [exec_fg_of_r2 hlive hp]
  constructor
  · intro hw
    rw [recvR2_of_written hw, resultByte_eq_extractLsb']
  · intro hw
    rw [recvR2_of_unwritten hw, raiseFault_eq hlive]

end Sys2Proof.Proofs
end

section
/-! PROOFS. The edge handler family (41_edge_handler.md): when IRQ_EDGE has a step, and what it answers (rule R130). -/

namespace Sys2Proof.Proofs

open Sys2Proof Sys2Proof.Machine

/-- `execIrqEdge_next_iff` at the dispatch: the guard of IRQ_EDGE and its one answer (rule R130). -/
theorem exec_irqEdge_next_iff {s t : State} :
    exec .irqEdge s = .next t ↔ s.faults = [] ∧ edgeEnabled s = true ∧ edgeHandler s = t :=
  execIrqEdge_next_iff

/-- Settles O35: at no recorded fault the guard is `edgeEnabled`, and the only answer is the handler's body. -/
theorem edgeHandlerEnabledExactly : Obligations.EdgeHandlerEnabledExactly := by
  unfold Obligations.EdgeHandlerEnabledExactly
  intro s
  constructor
  · have hstep : (∃ t, exec .irqEdge s = .next t) ↔ s.faults = [] ∧ edgeEnabled s = true := by
      simp [exec_irqEdge_next_iff]
    rw [hstep, edgeEnabled_iff, and_left_comm (a := s.rxCfg = true)]
  · intro t h
    obtain ⟨-, -, hbody⟩ := exec_irqEdge_next_iff.1 h
    exact hbody.symm

end Sys2Proof.Proofs
end

section
/-! PROOFS. The compare handler family (42_timer_handler.md): entry through either vector (rules R140, R141), the
transmit branch (rule R142), the receive branch (rule R143) and the framing validator (rule R144). -/

namespace Sys2Proof.Proofs

open Sys2Proof Sys2Proof.Machine

/-! ### Entry (rules R140, R141) -/

/-- `execIrqCc_next_iff` at the dispatch, its guard written out (rules R140, R141). -/
theorem exec_irqCc_next_iff {s t : State} :
    exec .irqCc s = .next t ↔
      s.faults = [] ∧ (s.initialized = true ∧ s.ccie = true ∧ s.ccifg = true) ∧ ccHandler s = t := by
  rw [← ccEnabled_iff]
  exact execIrqCc_next_iff

theorem ccRequested_iff {s : State} : ccRequested s = true ↔ s.ccie = true ∧ s.ccifg = true := by
  simp [ccRequested]

/-- A vector read that answers OTHER has no effect (rule R141). -/
theorem ccSharedEntry_of_not_requested {s : State} (h : ccRequested s = false) : ccSharedEntry s = s := by
  rw [ccSharedEntry, readIv_of_not_requested h]

/-! ### The dispatch after `ccifg` is cleared (rules R140, R141) -/

theorem ccDispatch_of_unwritten {s : State} (hw : s.bitcntWritten = false) :
    ccDispatch s = raiseFault .unwritten s :=
  readBitcnt_of_unwritten hw

theorem ccDispatch_of_out_of_range {s : State} (hw : s.bitcntWritten = true) (hr : 10#4 < s.bitcnt) :
    ccDispatch s = raiseFault .bitcntRange s := by
  simp [ccDispatch, hw, hr]

theorem ccDispatch_of_transmitting {s : State} (hw : s.bitcntWritten = true) (hr : s.bitcnt ≤ 10#4)
    (hrecv : s.receiving = false) : ccDispatch s = transmitBranch s.bitcnt s := by
  simp [ccDispatch_of_written hw hr, hrecv]

theorem ccDispatch_of_receiving {s : State} (hw : s.bitcntWritten = true) (hr : s.bitcnt ≤ 10#4)
    (hrecv : s.receiving = true) : ccDispatch s = receiveBranch s.bitcnt s := by
  simp [ccDispatch_of_written hw hr, hrecv]

/-! ### A requested compare handler -/

section
variable {s : State} (hlive : s.faults = []) (hinit : s.initialized = true) (hie : s.ccie = true)
  (hifg : s.ccifg = true)
include hlive hinit hie hifg

/-- Through either vector the flag is cleared, then the dispatch decides (rules R140, R141). -/
theorem exec_irqCc_of_dispatch {t : State} (h : ccDispatch { s with ccifg := false } = t) :
    exec .irqCc s = .next t :=
  exec_irqCc_next_iff.2
    ⟨hlive, ⟨hinit, hie, hifg⟩, (ccHandler_of_requested (ccRequested_iff.2 ⟨hie, hifg⟩)).trans h⟩

theorem exec_irqCc_of_unwritten (hw : s.bitcntWritten = false) :
    exec .irqCc s = .next { s with ccifg := false, faults := [.unwritten] } :=
  exec_irqCc_of_dispatch hlive hinit hie hifg (Eq.trans (ccDispatch_of_unwritten hw) (raiseFault_eq hlive))

theorem exec_irqCc_of_out_of_range (hw : s.bitcntWritten = true) (hr : 10#4 < s.bitcnt) :
    exec .irqCc s = .next { s with ccifg := false, faults := [.bitcntRange] } :=
  exec_irqCc_of_dispatch hlive hinit hie hifg (Eq.trans (ccDispatch_of_out_of_range hw hr) (raiseFault_eq hlive))

theorem exec_irqCc_of_transmitting (hw : s.bitcntWritten = true) (hr : s.bitcnt ≤ 10#4)
    (hrecv : s.receiving = false) :
    exec .irqCc s = .next (transmitBranch s.bitcnt { s with ccifg := false }) :=
  exec_irqCc_of_dispatch hlive hinit hie hifg (ccDispatch_of_transmitting hw hr hrecv)

theorem exec_irqCc_of_receiving (hw : s.bitcntWritten = true) (hr : s.bitcnt ≤ 10#4)
    (hrecv : s.receiving = true) :
    exec .irqCc s = .next (receiveBranch s.bitcnt { s with ccifg := false }) :=
  exec_irqCc_of_dispatch hlive hinit hie hifg (ccDispatch_of_receiving hw hr hrecv)

end

/-- Settles O38: the guard of IRQ_CC, the two guard faults and the two branches by the bit counter read at entry, and
the vector read that answers OTHER. -/
theorem compareHandlerEntry : Obligations.CompareHandlerEntry := by
  unfold Obligations.CompareHandlerEntry
  refine ⟨fun s => by simp [exec_irqCc_next_iff], fun s hlive hinit hie hifg => ?_, fun s hother => ?_⟩
  · exact ⟨exec_irqCc_of_unwritten hlive hinit hie hifg, exec_irqCc_of_out_of_range hlive hinit hie hifg,
      exec_irqCc_of_transmitting hlive hinit hie hifg, exec_irqCc_of_receiving hlive hinit hie hifg⟩
  · rw [← ccRequested_iff, Bool.not_eq_true] at hother
    exact ccSharedEntry_of_not_requested hother

/-! ### Timer sums (rule R10) -/

theorem timerSum_eq (c : Config) (a n : Nat) : timerSum c a n = (a + n) % 2 ^ c.timerBits := rfl

/-! ### The transmit branch (rule R142) -/

/-- A bit to send from a `txsh` never written (rule R37). -/
theorem transmitBranch_faults_of_unwritten {n : Count} {s : State} (hlive : s.faults = []) (hn : n ≠ 0#4)
    (hw : s.txshWritten = false) : (transmitBranch n s).faults = [.unwritten] := by
  obtain ⟨hzero, -⟩ | ⟨-, hwritten, -⟩ | ⟨-, -, hbranch⟩ := transmitBranch_cases n s
  · exact absurd hzero hn
  · simp [hw] at hwritten
  · rw [hbranch]
    exact raiseFault_of_live hlive

/-- Settles O39: the branch's writes at the end of the transmission and before it, and the fault of a `txsh` never
written. -/
theorem transmitBranchEffect : Obligations.TransmitBranchEffect := by
  unfold Obligations.TransmitBranchEffect
  intro s hlive hinit hie hifg hcount hr hrecv
  rw [exec_irqCc_of_transmitting hlive hinit hie hifg hcount hr hrecv]
  refine ⟨fun hend => ?_, fun hbit hw => ?_, fun hbit hw => ?_⟩
  · simp [transmitBranch_end, timerSum_eq, hend]
  · simp [transmitBranch_bit hbit, timerSum_eq, outModeOfBit, hw, hcount]
  · exact ⟨_, rfl, transmitBranch_faults_of_unwritten hlive hbit hw⟩

/-! ### The framing validator (rule R144) -/

theorem validFrame_iff {v : Shift} : validFrame v = true ↔ v &&& 0x201#10 = 0x200#10 := beq_iff_eq

/-- The mask 0x201 keeps bits 0 and 9, and 0x200 has the second of them set. -/
theorem and_mask_eq_iff {v : Shift} : v &&& 0x201#10 = 0x200#10 ↔ v.getLsbD 0 = false ∧ v.getLsbD 9 = true := by
  constructor
  · intro h
    have hbit (i : Nat) : (v &&& 0x201#10).getLsbD i = (0x200#10).getLsbD i := by rw [h]
    exact ⟨by simpa using hbit 0, by simpa using hbit 9⟩
  · rintro ⟨hstart, hstop⟩
    ext i hi
    interval_cases i <;> simp_all

/-- Settles O41: the validator is the mask test by definition, and the mask test reads bits 0 and 9. -/
theorem validatorTestsStartAndStop : Obligations.ValidatorTestsStartAndStop := by
  unfold Obligations.ValidatorTestsStartAndStop
  exact fun v => ⟨validFrame_iff, validFrame_iff.trans and_mask_eq_iff⟩

/-! ### The receive branch (rule R143) -/

/-- A sample into an `rxsh` never written (rule R37). -/
theorem receiveBranch_faults_of_unwritten {n : Count} {s : State} (hlive : s.faults = [])
    (hw : s.rxshWritten = false) : (receiveBranch n s).faults = [.unwritten] := by
  obtain ⟨-, hwritten, -⟩ | ⟨-, hwritten, -⟩ | ⟨-, hbranch⟩ | ⟨-, -, hbranch⟩ := receiveBranch_cases n s
  · simp [hw] at hwritten
  · simp [hw] at hwritten
  · rw [hbranch]
    exact raiseFault_of_live hlive
  · rw [hbranch]
    exact raiseFault_of_live hlive

/-- Settles O40: the branch's writes for a sample and for the end of the frame, where the validator decides what is
left, and the fault of an `rxsh` never written. -/
theorem receiveBranchEffect : Obligations.ReceiveBranchEffect := by
  unfold Obligations.ReceiveBranchEffect
  intro s hlive hinit hie hifg hcount hr hrecv v hv
  have hsample : sampledShift s.rxIn s.rxsh = v := hv.symm
  rw [exec_irqCc_of_receiving hlive hinit hie hifg hcount hr hrecv]
  refine ⟨fun hw hbit => ?_, fun hw hend hvalid => ?_, fun hw hend hvalid => ?_, fun hw => ?_⟩
  · simp [receiveBranch_bit hbit, timerSum_eq, hsample, hw, hcount]
  · rw [← validFrame_iff] at hvalid
    simp [receiveBranch_end, timerSum_eq, hsample, hvalid, frameData, hw, hend]
  · rw [ne_eq, ← validFrame_iff, Bool.not_eq_true] at hvalid
    simp [receiveBranch_end, timerSum_eq, hsample, hvalid, hw, hend]
  · exact ⟨_, rfl, receiveBranch_faults_of_unwritten hlive hw⟩

end Sys2Proof.Proofs
end

section
/-! PROOFS. The timer and lines family (43_timer_and_lines.md): one tick (rules R160 to R162) and one change of the RX
level (rules R163, R164). -/

namespace Sys2Proof.Proofs

open Sys2Proof Sys2Proof.Machine

/-! ### One tick (rules R160 to R162) -/

theorem exec_tick_of_live {s : State} (hlive : s.faults = []) : exec .tick s = .next (timerTick s) :=
  whenLive_of_live hlive

/-- A tick of the running timer that does not reach the compare register. -/
theorem timerTick_of_no_match {s : State} (hrun : s.tmode = .cont) (hne : timerSum s.cfg s.tar 1 ≠ s.ccr) :
    timerTick s = { s with now := s.now + 1, tar := timerSum s.cfg s.tar 1 } := by
  rw [timerTick_cont hrun, if_neg hne]

/-- A tick of the running timer that reaches the compare register: the flag and the output unit (rules R161, R162). -/
theorem timerTick_of_match {s : State} (hrun : s.tmode = .cont) (heq : timerSum s.cfg s.tar 1 = s.ccr) :
    timerTick s =
      { s with
        now := s.now + 1, tar := timerSum s.cfg s.tar 1, ccifg := true, out := outAfterMatch s.outmod s.out } := by
  rw [timerTick_cont hrun, if_pos heq]

/-- Settles O44: the three kinds of tick, `timerSum` being the sum modulo 2^W; at a match the output unit acts by its
mode. -/
theorem tickEffect : Obligations.TickEffect := by
  unfold Obligations.TickEffect
  intro s hlive
  rw [exec_tick_of_live hlive, ← timerSum_eq]
  refine ⟨fun hstop => ?_, fun hrun hne => ?_, fun hrun heq => ?_⟩
  · rw [timerTick_stop hstop]
  · rw [timerTick_of_no_match hrun hne]
  · rw [timerTick_of_match hrun heq]
    cases s.outmod <;> rfl

/-! ### One change of the RX level (rules R163, R164) -/

section
variable {s : State} {v : Bool} (hlive : s.faults = [])
include hlive

theorem exec_line_of_rx (hrx : s.cfg.rxEnabled = true) : exec (.line v) s = .next (setLine v s) :=
  execLine_next_iff.2 ⟨hlive, hrx, rfl⟩

/-- There is no LINE without receive support (rule R75). -/
theorem exec_line_of_no_rx (hrx : s.cfg.rxEnabled = false) : exec (.line v) s = .refused (.word .noRx) := by
  simp [exec, execLine, hlive, hrx]

end

/-- The edge flag after a line change: set by a falling edge of the configured pin, else kept (rule R164). -/
theorem edgeFlagAfter_eq_ite (s : State) (v : Bool) :
    edgeFlagAfter s v = if s.rxCfg = true ∧ s.rxIn = true ∧ v = false then true else s.rxIfg := by
  have hfall : (s.rxCfg && s.rxIn && !v) = true ↔ s.rxCfg = true ∧ s.rxIn = true ∧ v = false := by
    simp [and_assoc]
  simp only [edgeFlagAfter, ← hfall]
  cases s.rxCfg && s.rxIn && !v <;> simp

/-- Settles O47: receive support decides the refusal, and the edge flag is set by a falling edge of the configured
pin only. -/
theorem lineEffect : Obligations.LineEffect := by
  unfold Obligations.LineEffect
  intro s v hlive
  refine ⟨fun hrx => ?_, exec_line_of_no_rx hlive⟩
  rw [exec_line_of_rx hlive hrx, setLine, edgeFlagAfter_eq_ite]

end Sys2Proof.Proofs
end

section
/-! PROOFS. The exceptions family (60_exceptions.md): two interrupts requested at once (rule R213). -/

namespace Sys2Proof.Proofs

open Sys2Proof Sys2Proof.Machine

theorem edgeRequested_iff {s : State} :
    edgeRequested s = true ↔ s.cfg.rxEnabled = true ∧ s.rxIe = true ∧ s.rxIfg = true := by
  simp [edgeRequested, and_assoc]

/-- Settles O37: the guard of each handler speaks of its own request only, so neither waits for the other. -/
theorem eitherHandlerFirst : Obligations.EitherHandlerFirst := by
  unfold Obligations.EitherHandlerFirst
  intro s hlive hinit hpin hedge hcc
  have hedgeEnabled : edgeEnabled s = true :=
    edgeEnabled_iff.2 ⟨hinit, hpin, edgeRequested_iff.1 hedge⟩
  constructor
  · exact ⟨edgeHandler s, exec_irqEdge_next_iff.2 ⟨hlive, hedgeEnabled, rfl⟩⟩
  · exact ⟨ccHandler s, exec_irqCc_next_iff.2 ⟨hlive, ⟨hinit, ccRequested_iff.1 hcc⟩, rfl⟩⟩

end Sys2Proof.Proofs
end

section
/-! PROOFS. The words of an operation: encoding and decoding undo each other (30_encoding.md rules R70 to R75). -/

namespace Sys2Proof.Proofs

open Sys2Proof Sys2Proof.Machine

/-- Settles O5: the decoder finds the operation's code, operand and reserved bits in its word. -/
theorem decodeEncodeRoundTrip : Obligations.DecodeEncodeRoundTrip := by
  unfold Obligations.DecodeEncodeRoundTrip
  exact fun c i hwf => decode_encode hwf

/-- Settles O6: the fields the decoder accepted are those of the encoding, and it has checked that the operation
exists. -/
theorem encodeDecodeRoundTrip : Obligations.EncodeDecodeRoundTrip := by
  unfold Obligations.EncodeDecodeRoundTrip
  intro c w i h
  obtain ⟨-, -, hwf⟩ := decode_ok_iff.1 h
  exact ⟨encode_of_decode h, hwf⟩

end Sys2Proof.Proofs
end

section
/-! PROOFS. The invariant of the reachable states (`State.Inv`): it holds at reset and every move keeps it. A move's
lemma names only the clauses that the move can touch; every other clause is the one of the state before it. -/

namespace Sys2Proof.Proofs

open Sys2Proof Sys2Proof.Machine

/-! ### At reset -/

/-- The reset state with both lists loaded meets the invariant: nothing is initialized, written or in flight. -/
theorem inv_load_resetWith {c : Config} {d : ResetDraws} (program schedule : List Word) (hd : d.inRange c = true) :
    ((State.resetWith c d).load program schedule).Inv := by
  simp only [ResetDraws.inRange, Bool.and_eq_true, decide_eq_true_eq] at hd
  constructor <;> simp [State.load, State.resetWith, Phase.timerStarted, Phase.afterLoad, Phase.counterLoaded, hd]

/-- Settles O55: the loaded reset state for every draw in range; `State.reset` is one of them with empty lists. -/
theorem invariantAtReset : Obligations.InvariantAtReset := by
  unfold Obligations.InvariantAtReset
  exact ⟨fun c d program schedule _ hd => inv_load_resetWith program schedule hd,
    inv_load_resetWith (c := Config.k8) (d := ResetDraws.zero) [] [] (by decide)⟩

/-! ### The bit counter -/

theorem nine_le_ten : (9#4 : Count) ≤ 10#4 := by decide

/-- Counting down stays in range (rule R23). -/
theorem sub_one_le {n m : Count} (hn : n ≠ 0#4) (h : n ≤ m) : n - 1#4 ≤ m := by
  bv_omega

/-- One bit fewer to send is one bit more sent (rule R142). -/
theorem toNat_ten_sub_pred {n : Count} (hn : n ≠ 0#4) (h : n ≤ 10#4) :
    10 - (n - 1#4).toNat = 10 - n.toNat + 1 := by
  bv_omega

/-! ### The phases of the arming window -/

/-- S4 to S7 lie in the arming window S3 to S7. -/
theorem inArmWindow_of_timerStarted {q : Phase} (h : q.timerStarted = true) : q.inArmWindow = true := by
  cases q <;> simp_all [Phase.timerStarted, Phase.inArmWindow]

/-- S5 to S7 lie in the arming window S3 to S7. -/
theorem inArmWindow_of_counterLoaded {q : Phase} (h : q.counterLoaded = true) : q.inArmWindow = true := by
  cases q <;> simp_all [Phase.counterLoaded, Phase.inArmWindow]

/-! ### What the invariant says of a phase -/

section
variable {s : State} (h : s.Inv)
include h

/-- Only IDLE is possible before INIT. -/
theorem initialized_of_ne_idle (hp : s.fgPhase ≠ .idle) : s.initialized = true := by
  by_contra hinit
  obtain ⟨hidle, -⟩ := h.before_init (Bool.eq_false_iff.2 hinit)
  exact hp hidle

/-- No reception is in flight in SEND's arming window. -/
theorem not_receiving_of_inArmWindow (hp : s.fgPhase.inArmWindow = true) : s.receiving = false := by
  by_contra hrecv
  obtain ⟨-, -, -, -, -, -, hwindow⟩ := h.reception (Bool.eq_true_of_not_eq_false hrecv)
  simp [hp] at hwindow

/-- Without a reception the compare interrupt is enabled at S8 only. -/
theorem ccie_eq_false_of_ne_s8 (hinit : s.initialized = true) (hrecv : s.receiving = false) (hp : s.fgPhase ≠ .s8) :
    s.ccie = false := by
  by_contra hie
  obtain ⟨hs8, -⟩ := h.enabled_by_transfer hinit (Bool.eq_true_of_not_eq_false hie) hrecv
  exact hp hs8

/-- A command that records a fault other than the two guard faults. -/
theorem inv_record {f : Fault} (p : List Word) (hu : f ≠ .unwritten) (hb : f ≠ .bitcntRange) :
    ({ s with program := p, faults := [f] } : State).Inv :=
  { h with
    one_fault := by simp
    no_guard_fault := by simp [hu.symm, hb.symm] }

/-! ### The host commands -/

/-- Where INIT is not busy, no reception is in flight: neither before INIT nor after it. -/
theorem not_receiving_of_not_busy (hbusy : initBusy s = false) : s.receiving = false := by
  cases hinit : s.initialized with
  | false =>
    obtain ⟨-, hrecv, -⟩ := h.before_init hinit
    exact hrecv
  | true =>
    simp only [initBusy, hinit, Bool.true_and, Bool.or_eq_false_iff] at hbusy
    exact hbusy.1

/-- The RX pin is not configured without receive support, before INIT and after it. -/
theorem rxEnabled_or_rxCfg : (s.cfg.rxEnabled || s.rxCfg) = s.cfg.rxEnabled := by
  cases hinit : s.initialized with
  | false =>
    obtain ⟨-, -, -, hcfg⟩ := h.before_init hinit
    simp [hcfg]
  | true => simp [h.rx_pin hinit]

theorem inv_init (p : List Word) (hbusy : initBusy s = false) :
    ({ s with
      program := p, txGpio := true, txDir := .output, out := true, outmod := .hold, txFn := .timer,
      tmode := .stop, ccie := false, ccifg := false,
      rxCfg := s.cfg.rxEnabled || s.rxCfg, rxIfg := !s.cfg.rxEnabled && s.rxIfg,
      rxIe := s.cfg.rxEnabled || s.rxIe, initialized := true, fgPhase := .idle } : State).Inv :=
  have hrecv := not_receiving_of_not_busy h hbusy
  { h with
    before_init := nofun
    tx_pin := fun _ => ⟨rfl, rfl, rfl⟩
    rx_pin := fun _ => rxEnabled_or_rxCfg h
    edge_enable := fun _ hrx => by simp [hrecv, show s.cfg.rxEnabled = true from hrx]
    reception := fun hr => by simp [hrecv] at hr
    enabled_by_transfer := nofun
    stopped_when_idle := fun _ _ _ => rfl
    running_while_arming := nofun
    txsh_written := nofun
    txsh_loaded := nofun
    txsh_framed := nofun
    counter_loaded := nofun
    transmission := nofun
    byte_waiting := nofun }

/-! ### The foreground -/

/-- A foreground step between two phases outside the arming window and S8. It leaves the timer alone, so what the
invariant asks is: a loaded `txsh` at S2 and a waiting byte at R2. -/
theorem inv_outside_window {v : Shift} {w r : Bool} {b x : Byte} {q : Phase} (p : List Word)
    (hinit : s.initialized = true) (hfrom : s.fgPhase.timerStarted = false)
    (hoff : s.fgPhase = .s8 → s.ccie = false) (hq : q.inArmWindow = false) (hq8 : q ≠ .s8)
    (hload : q.afterLoad = true → w = true ∧ v = zext10 b) (hready : r = true → s.byteReady = true)
    (hwait : q = .r2 → r = true) :
    ({ s with
      program := p, txsh := v, txshWritten := w, byteReady := r, fgByte := b, fgResult := x,
      fgPhase := q } : State).Inv :=
  have hdisabled (hrecv : s.receiving = false) : s.ccie = false := by
    by_cases hs8 : s.fgPhase = .s8
    · exact hoff hs8
    · exact ccie_eq_false_of_ne_s8 h hinit hrecv hs8
  { h with
    before_init := fun hno => by simp [hinit] at hno
    reception := fun hrecv =>
      have ⟨hrx, hie, hrun, hsh, hcnt, hle, _⟩ := h.reception hrecv
      ⟨hrx, hie, hrun, hsh, hcnt, hle, hq⟩
    enabled_by_transfer := fun _ hie hrecv => by simp [hdisabled hrecv] at hie
    stopped_when_idle := fun _ hie _ => h.stopped_when_idle hinit hie hfrom
    running_while_arming := fun hq' => by simp [inArmWindow_of_timerStarted hq'] at hq
    txsh_written := fun hq' => (hload hq').1
    txsh_loaded := fun hq' _ _ => (hload hq').2
    txsh_framed := fun hq' => by simp [show q = .s7 from hq', Phase.inArmWindow] at hq
    counter_loaded := fun hq' => by simp [inArmWindow_of_counterLoaded hq'] at hq
    transmission := fun hq' => absurd hq' hq8
    byte_written := fun hr => h.byte_written (hready hr)
    byte_waiting := hwait }

/-- A foreground step of SEND into a phase of the arming window, from S2 to S6. No reception is in flight and the
compare interrupt is disabled, so it may write the timer, the bit counter and `txsh`. -/
theorem inv_in_window {v : Shift} {w cw o : Bool} {n : Count} {m : TimerMode} {c : Nat} {om : OutMode} {p q : Phase}
    (hp : s.fgPhase = p) (hload : p.afterLoad = true) (hp7 : p ≠ .s7) (hp8 : p ≠ .s8)
    (hrecv : s.receiving = false) (hq : q.inArmWindow = true)
    (hrun : s.ccie = false → m = if q.timerStarted then .cont else .stop)
    (hc : c < s.cfg.timerModulus) (hn : n ≤ 10#4) (hw : s.txshWritten = true → w = true)
    (hv : v = if q = .s7 then frameBits s.txsh else s.txsh)
    (hcount : q.counterLoaded = true → cw = true ∧ n = 10#4) :
    ({ s with
      txsh := v, txshWritten := w, bitcnt := n, bitcntWritten := cw, tmode := m, ccr := c, out := o, outmod := om,
      fgPhase := q } : State).Inv :=
  have hne : s.fgPhase ≠ .idle := fun hidle => by simp [← hp, hidle, Phase.afterLoad] at hload
  have hinit : s.initialized = true := initialized_of_ne_idle h hne
  have hie : s.ccie = false := ccie_eq_false_of_ne_s8 h hinit hrecv (hp ▸ hp8)
  have htxsh : s.txsh = zext10 s.fgByte := h.txsh_loaded (hp ▸ hload) (hp ▸ hp7) (hp ▸ hp8)
  { h with
    ccr_in_range := hc
    bitcnt_in_range := hn
    before_init := fun hno => by simp [hinit] at hno
    reception := fun hr => by simp [hrecv] at hr
    enabled_by_transfer := fun _ hi => by simp [hie] at hi
    stopped_when_idle := fun _ _ hq' => (hrun hie).trans (if_neg (by simpa using hq'))
    running_while_arming := fun hq' => (hrun hie).trans (if_pos hq')
    txsh_written := fun _ => hw (h.txsh_written (hp ▸ hload))
    txsh_loaded := fun _ hq7 _ => (hv.trans (if_neg hq7)).trans htxsh
    txsh_framed := fun hq7 => (hv.trans (if_pos hq7)).trans (congrArg frameBits htxsh)
    counter_loaded := hcount
    transmission := fun hq8 => by simp [show q = .s8 from hq8, Phase.inArmWindow] at hq
    byte_waiting := fun hq2 => by simp [show q = .r2 from hq2, Phase.inArmWindow] at hq }

/-- S7 arms a transmission with the frame and all ten bits still to send. -/
theorem inv_s7 {f : Bool} (hp : s.fgPhase = .s7) :
    ({ s with outmod := .set, out := true, ccie := true, ccifg := f, fgPhase := .s8 } : State).Inv :=
  have hinit := initialized_of_ne_idle h (by simp [hp])
  have hrecv := not_receiving_of_inArmWindow h (by rw [hp]; rfl)
  have hrun := h.running_while_arming (by rw [hp]; rfl)
  have ⟨hcw, hcount⟩ := h.counter_loaded (by rw [hp]; rfl)
  { h with
    before_init := fun hno => by simp [hinit] at hno
    reception := fun hr => by simp [hrecv] at hr
    enabled_by_transfer := fun _ _ _ => ⟨rfl, hrun, hcw⟩
    stopped_when_idle := nofun
    running_while_arming := nofun
    txsh_written := fun _ => h.txsh_written (by rw [hp]; rfl)
    txsh_loaded := fun _ _ hne => absurd rfl hne
    txsh_framed := nofun
    counter_loaded := nofun
    transmission := fun _ _ _ => by simp [hcount, h.txsh_framed hp]
    byte_waiting := nofun }

/-! ### The edge handler -/

/-- A reception is armed: the edge handler may take the timer over from a transmission at S8. -/
theorem inv_edge {m : Nat} {o f : Bool} {k : Nat} (he : edgeEnabled s = true)
    (hp : s.fgPhase.inArmWindow = false) :
    ({ s with
      receiving := true, rxIe := false, rxIfg := false, tmode := .cont, ccr := timerSum s.cfg s.tar m,
      outmod := .hold, out := o, drawCount := k, ccie := true, ccifg := f, rxsh := 0#10, rxshWritten := true,
      bitcnt := 9#4, bitcntWritten := true } : State).Inv :=
  have ⟨hinit, _, hrx, _⟩ := edgeEnabled_iff.1 he
  { h with
    ccr_in_range := timerSum_lt _ _ _
    bitcnt_in_range := nine_le_ten
    before_init := fun hno => by simp [hinit] at hno
    edge_enable := fun _ _ => rfl
    reception := fun _ => ⟨hrx, rfl, rfl, rfl, rfl, BitVec.le_refl _, hp⟩
    enabled_by_transfer := nofun
    stopped_when_idle := nofun
    running_while_arming := fun _ => rfl
    counter_loaded := fun hq => by simp [inArmWindow_of_counterLoaded hq] at hp
    transmission := nofun
    byte_written := fun _ => rfl }

/-! ### The compare handler -/

/-- An enabled compare interrupt belongs to a transfer, which has written the bit counter. -/
theorem bitcntWritten_of_ccie (hinit : s.initialized = true) (hie : s.ccie = true) : s.bitcntWritten = true := by
  cases hrecv : s.receiving with
  | true =>
    obtain ⟨-, -, -, -, hcnt, -⟩ := h.reception hrecv
    exact hcnt
  | false =>
    obtain ⟨-, -, hcnt⟩ := h.enabled_by_transfer hinit hie hrecv
    exact hcnt

/-- The compare handler that finds no bit left ends the transmission; SEND is still at S8. -/
theorem inv_transmitEnd (he : ccEnabled s = true) (hrecv : s.receiving = false) :
    ({ s with
      ccifg := false, ccr := timerSum s.cfg s.ccr s.cfg.bitTime, tmode := .stop, ccie := false } : State).Inv :=
  have ⟨hinit, hie, _⟩ := ccEnabled_iff.1 he
  have ⟨hs8, _, _⟩ := h.enabled_by_transfer hinit hie hrecv
  { h with
    ccr_in_range := timerSum_lt _ _ _
    reception := fun hr => by simp [hrecv] at hr
    enabled_by_transfer := nofun
    stopped_when_idle := fun _ _ _ => rfl
    running_while_arming := fun hq => by simp [hs8, Phase.timerStarted] at hq
    transmission := nofun }

/-- The compare handler reads the frame's next bit: `txsh` has lost one more bit and the counter is one lower. -/
theorem inv_transmitBit {om : OutMode} (he : ccEnabled s = true) (hrecv : s.receiving = false)
    (hbit : s.bitcnt ≠ 0#4) :
    ({ s with
      ccifg := false, ccr := timerSum s.cfg s.ccr s.cfg.bitTime, outmod := om, txsh := s.txsh >>> 1,
      txshWritten := true, bitcnt := s.bitcnt - 1#4, bitcntWritten := true } : State).Inv :=
  have ⟨hinit, hie, _⟩ := ccEnabled_iff.1 he
  have ⟨hs8, hrun, _⟩ := h.enabled_by_transfer hinit hie hrecv
  { h with
    ccr_in_range := timerSum_lt _ _ _
    bitcnt_in_range := sub_one_le hbit h.bitcnt_in_range
    reception := fun hr => by simp [hrecv] at hr
    enabled_by_transfer := fun _ _ _ => ⟨hs8, hrun, rfl⟩
    txsh_written := fun _ => rfl
    txsh_loaded := fun _ _ hne => absurd hs8 hne
    txsh_framed := fun hq => by simp [hs8] at hq
    counter_loaded := fun hq => by simp [hs8, Phase.counterLoaded] at hq
    transmission := fun _ _ _ => by
      rw [toNat_ten_sub_pred hbit h.bitcnt_in_range, BitVec.shiftRight_add, ← h.transmission hs8 hie hrecv] }

/-- The compare handler takes one of the first nine samples of a reception. -/
theorem inv_receiveBit {v : Shift} (hrecv : s.receiving = true) (hbit : s.bitcnt ≠ 0#4) :
    ({ s with
      ccifg := false, ccr := timerSum s.cfg s.ccr s.cfg.bitTime, rxsh := v, rxshWritten := true,
      bitcnt := s.bitcnt - 1#4, bitcntWritten := true } : State).Inv :=
  have ⟨hrx, hie, hrun, _, _, hle, hwindow⟩ := h.reception hrecv
  { h with
    ccr_in_range := timerSum_lt _ _ _
    bitcnt_in_range := sub_one_le hbit h.bitcnt_in_range
    reception := fun _ => ⟨hrx, hie, hrun, rfl, rfl, sub_one_le hbit hle, hwindow⟩
    enabled_by_transfer := fun _ _ hr => by simp [hrecv] at hr
    counter_loaded := fun hq => by simp [inArmWindow_of_counterLoaded hq] at hwindow
    transmission := fun _ _ hr => by simp [hrecv] at hr
    byte_written := fun _ => rfl }

/-- The compare handler takes the stop sample and ends the reception, whatever the validator says. -/
theorem inv_receiveEnd {v : Shift} {valid : Bool} (he : ccEnabled s = true) (hrecv : s.receiving = true) :
    ({ s with
      ccifg := false, ccr := timerSum s.cfg s.ccr s.cfg.bitTime, tmode := .stop, ccie := false,
      receiving := false, rxIfg := false, rxIe := true, rxshWritten := true, rxsh := v,
      byteReady := s.byteReady || valid } : State).Inv :=
  have ⟨hinit, _⟩ := ccEnabled_iff.1 he
  have ⟨_, _, _, _, _, _, hwindow⟩ := h.reception hrecv
  { h with
    ccr_in_range := timerSum_lt _ _ _
    before_init := fun hno => by simp [hinit] at hno
    edge_enable := fun _ _ => rfl
    reception := nofun
    enabled_by_transfer := nofun
    stopped_when_idle := fun _ _ _ => rfl
    running_while_arming := fun hq => by simp [inArmWindow_of_timerStarted hq] at hwindow
    transmission := nofun
    byte_written := fun _ => rfl
    byte_waiting := fun hq => by simp [h.byte_waiting hq] }

/-! ### Every move -/

/-- The invariant does not speak of the schedule. -/
theorem inv_schedule (events : List Word) : ({ s with schedule := events } : State).Inv := { h with }

/-- Every move keeps the invariant: those that record a guard fault start from no state of it. -/
theorem inv_of_move {i : Instr} {t : State} (hm : Move s i t) : t.Inv := by
  cases hm with
  | initBusy => exact inv_record h _ (by decide) (by decide)
  | init _ _ hbusy => exact inv_init h _ hbusy
  | sendNotInitialized => exact inv_record h _ (by decide) (by decide)
  | send _ hidle hinit =>
    exact inv_outside_window h _ hinit (by rw [hidle]; rfl) (by simp [hidle]) rfl nofun nofun id nofun
  | recvNotInitialized => exact inv_record h _ (by decide) (by decide)
  | recv _ _ hidle hinit =>
    exact inv_outside_window h _ hinit (by rw [hidle]; rfl) (by simp [hidle]) rfl nofun nofun id nofun
  | s1 hp =>
    exact inv_outside_window h _ (initialized_of_ne_idle h (by simp [hp])) (by rw [hp]; rfl) (by simp [hp]) rfl nofun
      (fun _ => ⟨rfl, rfl⟩) id nofun
  | s2 hp hrecv =>
    have hinit := initialized_of_ne_idle h (by simp [hp])
    exact inv_in_window h hp rfl nofun nofun hrecv rfl
      (fun hie => h.stopped_when_idle hinit hie (by rw [hp]; rfl)) h.ccr_in_range h.bitcnt_in_range id rfl nofun
  | s3 hp =>
    exact inv_in_window h hp rfl nofun nofun (not_receiving_of_inArmWindow h (by rw [hp]; rfl)) rfl (fun _ => rfl)
      h.ccr_in_range h.bitcnt_in_range id rfl nofun
  | s4 hp =>
    exact inv_in_window h hp rfl nofun nofun (not_receiving_of_inArmWindow h (by rw [hp]; rfl)) rfl
      (fun _ => h.running_while_arming (by rw [hp]; rfl)) h.ccr_in_range (BitVec.le_refl _) id rfl (fun _ => ⟨rfl, rfl⟩)
  | s5 hp =>
    exact inv_in_window h hp rfl nofun nofun (not_receiving_of_inArmWindow h (by rw [hp]; rfl)) rfl
      (fun _ => h.running_while_arming (by rw [hp]; rfl)) (timerSum_lt _ _ _) h.bitcnt_in_range id rfl
      (fun _ => h.counter_loaded (by rw [hp]; rfl))
  | s6 hp =>
    exact inv_in_window h hp rfl nofun nofun (not_receiving_of_inArmWindow h (by rw [hp]; rfl)) rfl
      (fun _ => h.running_while_arming (by rw [hp]; rfl)) h.ccr_in_range h.bitcnt_in_range (fun _ => rfl) rfl
      (fun _ => h.counter_loaded (by rw [hp]; rfl))
  | s6Unwritten hp hw => simp [h.txsh_written (by rw [hp]; rfl)] at hw
  | s7 hp => exact inv_s7 h hp
  | s8 hp hie =>
    exact inv_outside_window h _ (initialized_of_ne_idle h (by simp [hp])) (by rw [hp]; rfl) (fun _ => hie) rfl
      nofun nofun id nofun
  | r1 hp hready =>
    exact inv_outside_window h _ (initialized_of_ne_idle h (by simp [hp])) (by rw [hp]; rfl) (by simp [hp]) rfl nofun
      nofun id (fun _ => hready)
  | r2 hp =>
    exact inv_outside_window h _ (initialized_of_ne_idle h (by simp [hp])) (by rw [hp]; rfl) (by simp [hp]) rfl nofun
      nofun nofun nofun
  | r2Unwritten hp hw => simp [h.byte_written (h.byte_waiting hp)] at hw
  | edgeInArmWindow => exact inv_record h _ (by decide) (by decide)
  | edge he hp => exact inv_edge h he hp
  | ccUnwritten he hw =>
    obtain ⟨hinit, hie, -⟩ := ccEnabled_iff.1 he
    simp [bitcntWritten_of_ccie h hinit hie] at hw
  | ccRange _ _ hr => exact absurd h.bitcnt_in_range (BitVec.not_le.2 hr)
  | transmitEnd he _ hrecv => exact inv_transmitEnd h he hrecv
  | transmitBit he _ _ hrecv hbit => exact inv_transmitBit h he hrecv hbit
  | transmitUnwritten he _ _ hrecv _ hw =>
    obtain ⟨hinit, hie, -⟩ := ccEnabled_iff.1 he
    obtain ⟨hs8, -⟩ := h.enabled_by_transfer hinit hie hrecv
    simp [h.txsh_written (by rw [hs8]; rfl)] at hw
  | receiveBit _ _ _ hrecv hbit => exact inv_receiveBit h hrecv hbit
  | receiveEnd he _ hrecv => exact inv_receiveEnd h he hrecv
  | receiveUnwritten _ _ hrecv hw =>
    obtain ⟨-, -, -, hsh, -⟩ := h.reception hrecv
    simp [hsh] at hw
  | receiveEndUnwritten _ _ hrecv _ hw =>
    obtain ⟨-, -, -, hsh, -⟩ := h.reception hrecv
    simp [hsh] at hw
  | tickStopped => exact { h with }
  | tickCount => exact { h with tar_in_range := timerSum_lt _ _ _ }
  | tickMatch => exact { h with tar_in_range := timerSum_lt _ _ _ }
  | line => exact { h with }

end

/-- Settles O56: a step is a move of the state without the event word, of which the invariant does not speak. -/
theorem stepKeepsInvariant : Obligations.StepKeepsInvariant := by
  unfold Obligations.StepKeepsInvariant
  intro s t h hstep
  obtain ⟨-, -, i, u, hfetch, hexec⟩ := step_next_iff.1 hstep
  obtain ⟨w, rest, -, -, rfl⟩ := fetchEvent_ok_iff.1 hfetch
  obtain ⟨-, hmove⟩ := exec_next_move hexec
  exact inv_of_move (inv_schedule h rest) hmove

end Sys2Proof.Proofs
end

section
/-! PROOFS. What follows of the invariant: in every reachable state (60_exceptions.md rules R203, R226, 20_memory.md
rule R61), and of a SEND held by a reception (40_host_operations.md rule R117). -/

namespace Sys2Proof.Proofs

open Sys2Proof Sys2Proof.Machine

/-- The invariant holds in every state of every run from reset. -/
theorem inv_of_reachable {s : State} (h : s.Reachable) : s.Inv := by
  induction h with
  | start c d program schedule _ hd => exact inv_load_resetWith program schedule hd
  | step s t _ hstep hinv => exact stepKeepsInvariant s t hinv hstep

/-- Settles O57: these are clauses of the invariant. -/
theorem guardFaultsUnreachable : Obligations.GuardFaultsUnreachable := by
  unfold Obligations.GuardFaultsUnreachable
  intro s hreach
  have hinv := inv_of_reachable hreach
  obtain ⟨hunwritten, hrange⟩ := hinv.no_guard_fault
  exact ⟨hunwritten, hrange, hinv.one_fault⟩

/-! ### The arming window and the armed block -/

theorem inArmWindow_iff_mem {q : Phase} : q.inArmWindow = true ↔ q ∈ [Phase.s3, .s4, .s5, .s6, .s7] := by
  cases q <;> simp [Phase.inArmWindow]

theorem timerStarted_iff_mem {q : Phase} : q.timerStarted = true ↔ q ∈ [Phase.s4, .s5, .s6, .s7] := by
  cases q <;> simp [Phase.timerStarted]

section
variable {s : State} (h : s.Inv) (hinit : s.initialized = true)
include h hinit

/-- After INIT an enabled compare interrupt means a running timer: a reception's or a transmission's. -/
theorem tmode_eq_cont_of_ccie (hie : s.ccie = true) : s.tmode = .cont := by
  cases hrecv : s.receiving with
  | true =>
    obtain ⟨-, -, hrun, -⟩ := h.reception hrecv
    exact hrun
  | false =>
    obtain ⟨-, hrun, -⟩ := h.enabled_by_transfer hinit hie hrecv
    exact hrun

/-- In SEND's arming window the compare interrupt is disabled. -/
theorem ccie_eq_false_of_inArmWindow (hp : s.fgPhase.inArmWindow = true) : s.ccie = false := by
  refine ccie_eq_false_of_ne_s8 h hinit (not_receiving_of_inArmWindow h hp) ?_
  rintro hs8
  simp [hs8, Phase.inArmWindow] at hp

end

/-- Settles O58: the pin clause of the invariant, and its clauses on the timer and the arming window. -/
theorem reachableLineAndPower : Obligations.ReachableLineAndPower := by
  unfold Obligations.ReachableLineAndPower
  intro s hreach hinit
  have hinv := inv_of_reachable hreach
  obtain ⟨hdir, hfn, -⟩ := hinv.tx_pin hinit
  refine ⟨txLine_of_timer hdir hfn, fun hie => ?_, fun hie hp => ?_, fun hp => ?_⟩
  · simp [State.armed, hie, tmode_eq_cont_of_ccie hinv hinit hie]
  · rw [← timerStarted_iff_mem, Bool.not_eq_true] at hp
    exact hinv.stopped_when_idle hinit hie hp
  · rw [← inArmWindow_iff_mem] at hp
    exact ⟨ccie_eq_false_of_inArmWindow hinv hinit hp, not_receiving_of_inArmWindow hinv hp⟩

/-! ### A SEND in progress during a reception (rule R117) -/

/-- During a reception a SEND in progress can only take S1: S2 and S8 hold, and S3 to S7 are excluded. -/
theorem eq_sendS1_of_receiving {s t : State} (h : s.Inv) (hrecv : s.receiving = true) (hidle : s.fgPhase ≠ .idle)
    (hr1 : s.fgPhase ≠ .r1) (hr2 : s.fgPhase ≠ .r2) (hexec : execFg s = .next t) : t = sendS1 s := by
  obtain ⟨-, hie, -, -, -, -, hwindow⟩ := h.reception hrecv
  obtain ⟨-, ⟨hp, -⟩ | ⟨-, rfl⟩ | ⟨-, hfree, -⟩ | ⟨hp, -⟩ | ⟨hp, -⟩ | ⟨hp, -⟩ | ⟨hp, -⟩ | ⟨hp, -⟩ | ⟨-, hdone, -⟩ |
    ⟨hp, -⟩ | ⟨hp, -⟩⟩ := execFg_next_cases hexec
  · exact absurd hp hidle
  · rfl
  · simp [hrecv] at hfree
  · simp [hp, Phase.inArmWindow] at hwindow
  · simp [hp, Phase.inArmWindow] at hwindow
  · simp [hp, Phase.inArmWindow] at hwindow
  · simp [hp, Phase.inArmWindow] at hwindow
  · simp [hp, Phase.inArmWindow] at hwindow
  · simp [hie] at hdone
  · exact absurd hp hr1
  · exact absurd hp hr2

/-- Settles O34: the one step left to the SEND is S1, which writes `txsh` and the phase only. -/
theorem sendHeldDuringReception : Obligations.SendHeldDuringReception := by
  unfold Obligations.SendHeldDuringReception
  intro s t hinv hrecv hidle hr1 hr2 hexec
  obtain rfl := eq_sendS1_of_receiving hinv hrecv hidle hr1 hr2 hexec
  exact ⟨rfl, rfl, rfl, rfl, rfl, rfl⟩

end Sys2Proof.Proofs
end

section
/-! PROOFS. What every operation leaves unchanged, and which operations write a flag: each is one case analysis over
the moves, in which the moves that write the field are named and all others keep it. -/

namespace Sys2Proof.Proofs

open Sys2Proof Sys2Proof.Machine

/-! ### The configuration (rule R6) -/

theorem cfg_of_exec {i : Instr} {s t : State} (h : exec i s = .next t) : t.cfg = s.cfg := by
  cases (exec_next_move h).2 <;> rfl

/-- A step that answers a next state executes the event word taken from the schedule. -/
theorem exec_of_step {s t : State} (h : step s = .next t) :
    ∃ i rest, s.schedule = encode i :: rest ∧ i.group = .event ∧ exec i { s with schedule := rest } = .next t := by
  obtain ⟨-, -, i, u, hfetch, hexec⟩ := step_next_iff.1 h
  obtain ⟨w, rest, hs, hdec, rfl⟩ := fetchEvent_ok_iff.1 hfetch
  exact ⟨i, rest, by rw [encode_of_decodeIn hdec, hs], (decodeIn_group hdec).1, hexec⟩

/-- Settles O3: no move writes the configuration, and neither does taking the event word. -/
theorem configurationNeverChanges : Obligations.ConfigurationNeverChanges := by
  unfold Obligations.ConfigurationNeverChanges
  refine ⟨fun i s t h => cfg_of_exec h, fun s t h => ?_⟩
  obtain ⟨i, rest, -, -, hexec⟩ := exec_of_step h
  have hcfg := cfg_of_exec hexec
  exact hcfg

/-! ### Time (rules R26, R39) -/

/-- Every tick is counted, whether the timer runs or not. -/
theorem timerTick_now (s : State) : (timerTick s).now = s.now + 1 := by
  cases hrun : s.tmode with
  | stop => rw [timerTick_stop hrun]
  | cont => rw [timerTick_cont hrun]; split <;> rfl

theorem time_of_move {i : Instr} {s t : State} (h : Move s i t) (hi : i ≠ .tick) : t.tar = s.tar ∧ t.now = s.now := by
  cases h with
  | tickStopped | tickCount | tickMatch => exact absurd rfl hi
  | _ => exact ⟨rfl, rfl⟩

/-- Settles O48: among the moves only those of a tick write the two counters, and a tick counts one. -/
theorem onlyTicksMoveTime : Obligations.OnlyTicksMoveTime := by
  unfold Obligations.OnlyTicksMoveTime
  intro i s t h
  refine ⟨time_of_move (exec_next_move h).2, ?_⟩
  rintro rfl
  obtain ⟨-, rfl⟩ := execTick_next_iff.1 h
  exact timerTick_now s

/-! ### The foreground's state (rule R215) -/

/-- A host command runs as a step of FG, executed directly or started from the program. -/
theorem agent_of_taken {c i : Instr} {s : State} {p : List Word} (hc : c.agent = .fg) (h : Taken c s i p) :
    i.agent = .fg := by
  cases h with
  | direct => exact hc
  | started => rfl

/-- The moves of the other agents write no element of the foreground. -/
theorem foreground_of_move {i : Instr} {s t : State} (h : Move s i t) :
    i.agent = .fg ∨
      (t.fgPhase = s.fgPhase ∧ t.fgByte = s.fgByte ∧ t.fgResult = s.fgResult ∧ t.program = s.program) := by
  cases h with
  | initBusy htaken | init htaken | sendNotInitialized htaken | send htaken | recvNotInitialized htaken
  | recv htaken => exact .inl (agent_of_taken rfl htaken)
  | s1 | s2 | s3 | s4 | s5 | s6 | s6Unwritten | s7 | s8 | r1 | r2 | r2Unwritten => exact .inl rfl
  | _ => exact .inr ⟨rfl, rfl, rfl, rfl⟩

/-- Settles O51: the handlers are steps of the IRQ agent. -/
theorem handlersKeepForeground : Obligations.HandlersKeepForeground := by
  unfold Obligations.HandlersKeepForeground
  intro i s t hirq h
  obtain hfg | hsame := foreground_of_move (exec_next_move h).2
  · simp [hirq] at hfg
  · exact hsame

/-! ### The transfer flags (rules R24, R25) -/

theorem receiving_of_move {i : Instr} {s t : State} (h : Move s i t) :
    t.receiving = s.receiving ∨ (i = .irqEdge ∧ t.receiving = true) ∨
      (i = .irqCc ∧ s.bitcnt = 0#4 ∧ t.receiving = false) := by
  cases h with
  | edge => exact .inr (.inl ⟨rfl, rfl⟩)
  | receiveEnd _ _ _ hend => exact .inr (.inr ⟨rfl, hend, rfl⟩)
  | receiveEndUnwritten _ _ _ hend => exact .inr (.inr ⟨rfl, hend, rfl⟩)
  | _ => exact .inl rfl

theorem byteReady_of_move {i : Instr} {s t : State} (h : Move s i t) :
    t.byteReady = s.byteReady ∨
      (i = .irqCc ∧ s.receiving = true ∧ s.bitcnt = 0#4 ∧ (s.byteReady = true → t.byteReady = true)) ∨
      (i = .fg ∧ s.fgPhase = .r2 ∧ t.byteReady = false) := by
  cases h with
  | receiveEnd _ _ hrecv hend => exact .inr (.inl ⟨rfl, hrecv, hend, fun hready => by simp [hready]⟩)
  | r2 hp => exact .inr (.inr ⟨rfl, hp, rfl⟩)
  | _ => exact .inl rfl

/-- Settles O52: the writers of either flag among the moves, and the value they write. -/
theorem transferFlagWriters : Obligations.TransferFlagWriters := by
  unfold Obligations.TransferFlagWriters
  intro i s t h
  obtain ⟨-, hmove⟩ := exec_next_move h
  have hrecv := receiving_of_move hmove
  have hready := byteReady_of_move hmove
  refine ⟨fun h0 h1 => ?_, fun h1 h0 => ?_, fun h0 h1 => ?_, fun h1 h0 => ?_⟩
  · simp only [h0, h1, Bool.true_eq_false, and_false, or_false, false_or, and_true] at hrecv
    exact hrecv
  · simp only [h0, h1, Bool.false_eq_true, and_false, false_or, and_true] at hrecv
    exact hrecv
  · simp only [h0, h1, Bool.true_eq_false, and_false, or_false, false_or, implies_true, and_true] at hready
    exact hready
  · simp only [h0, h1, Bool.false_eq_true, and_false, false_or, and_true, forall_const] at hready
    exact hready

/-! ### The interrupt enables and the compare flag (rules R161, R210, R211) -/

/-- INIT, executed directly or started by FG from the program. -/
theorem init_or_fg_of_taken {i : Instr} {s : State} {p : List Word} (hidle : s.fgPhase = .idle)
    (h : Taken .init s i p) :
    i = .init ∨ (i = .fg ∧ s.fgPhase = .idle ∧ ∃ rest, s.program = encode .init :: rest) := by
  obtain hi | ⟨hi, hp⟩ := eq_or_program_eq_of_taken h
  · exact .inl hi
  · exact .inr ⟨hi, hidle, p, hp⟩

theorem rxIe_of_move {i : Instr} {s t : State} (h : Move s i t) :
    t.rxIe = s.rxIe ∨ i = .irqEdge ∨ (i = .irqCc ∧ s.receiving = true ∧ s.bitcnt = 0#4) ∨
      i = .init ∨ (i = .fg ∧ s.fgPhase = .idle ∧ ∃ rest, s.program = encode .init :: rest) := by
  cases h with
  | edge => exact .inr (.inl rfl)
  | receiveEnd _ _ hrecv hend => exact .inr (.inr (.inl ⟨rfl, hrecv, hend⟩))
  | receiveEndUnwritten _ _ hrecv hend => exact .inr (.inr (.inl ⟨rfl, hrecv, hend⟩))
  | init htaken hidle => exact .inr (.inr (.inr (init_or_fg_of_taken hidle htaken)))
  | _ => exact .inl rfl

theorem ccie_of_move {i : Instr} {s t : State} (h : Move s i t) :
    t.ccie = s.ccie ∨ (t.ccie = true ∧ (i = .irqEdge ∨ (i = .fg ∧ s.fgPhase = .s7))) ∨
      (t.ccie = false ∧ ((i = .irqCc ∧ s.bitcnt = 0#4) ∨ i = .init ∨
        (i = .fg ∧ s.fgPhase = .idle ∧ ∃ rest, s.program = encode .init :: rest))) := by
  cases h with
  | edge => exact .inr (.inl ⟨rfl, .inl rfl⟩)
  | s7 hp => exact .inr (.inl ⟨rfl, .inr ⟨rfl, hp⟩⟩)
  | transmitEnd _ _ _ hend => exact .inr (.inr ⟨rfl, .inl ⟨rfl, hend⟩⟩)
  | receiveEnd _ _ _ hend => exact .inr (.inr ⟨rfl, .inl ⟨rfl, hend⟩⟩)
  | receiveEndUnwritten _ _ _ hend => exact .inr (.inr ⟨rfl, .inl ⟨rfl, hend⟩⟩)
  | init htaken hidle => exact .inr (.inr ⟨rfl, .inr (init_or_fg_of_taken hidle htaken)⟩)
  | _ => exact .inl rfl

/-- Settles O53: the writers of either enable among the moves, and the value they write. -/
theorem interruptEnableWriters : Obligations.InterruptEnableWriters := by
  unfold Obligations.InterruptEnableWriters
  intro i s t h
  obtain ⟨-, hmove⟩ := exec_next_move h
  refine ⟨(rxIe_of_move hmove).resolve_left, fun h0 h1 => ?_, fun h1 h0 => ?_⟩
  · obtain hsame | ⟨-, hon⟩ | ⟨hoff, -⟩ := ccie_of_move hmove
    · simp [h0, h1] at hsame
    · exact hon
    · simp [h1] at hoff
  · obtain hsame | ⟨hon, -⟩ | ⟨-, hoff⟩ := ccie_of_move hmove
    · simp [h0, h1] at hsame
    · simp [h0] at hon
    · exact hoff

/-- The one move that sets the compare flag is the tick of a match. -/
theorem ccifg_of_move {i : Instr} {s t : State} (h : Move s i t) (h0 : s.ccifg = false) (h1 : t.ccifg = true) :
    i = .tick ∧ s.tmode = .cont ∧ t.tar = s.ccr ∧ t.ccr = s.ccr := by
  cases h with
  | tickMatch hrun hmatch => exact ⟨rfl, hrun, hmatch, rfl⟩
  | _ => simp [h0] at h1

/-- Settles O45: every move but the tick of a match clears the flag or keeps it. -/
theorem flagSetOnlyByMatch : Obligations.FlagSetOnlyByMatch := by
  unfold Obligations.FlagSetOnlyByMatch
  exact fun i s t h => ccifg_of_move (exec_next_move h).2

end Sys2Proof.Proofs
end

section
/-! PROOFS. Fetching (30_encoding.md rule R71, 40_host_operations.md rule R115): the step runs the schedule's next
event, FG at IDLE the program's next command; when FG has a step, and what can step in a quiescent state (rule R233). -/

namespace Sys2Proof.Proofs

open Sys2Proof Sys2Proof.Machine

/-! ### The words of the two lists -/

theorem wellFormedIn_iff {c : Config} {g : Group} {i : Instr} :
    i.wellFormedIn c g = true ↔ i.wellFormed c = true ∧ i.group = g := by
  simp [Instr.wellFormedIn]

theorem decodeIn_ok_iff {g : Group} {c : Config} {w : Word} {i : Instr} :
    decodeIn g c w = .ok i ↔ decode c w = .ok i ∧ i.group = g := by
  refine ⟨fun h => (decodeIn_group h).symm, fun ⟨hdec, hgroup⟩ => ?_⟩
  simp [decodeIn, hdec, hgroup]

/-- A word that decodes for a list is the encoding of an operation that exists and stands in the right list. -/
theorem decodeIn_iff_encode {g : Group} {c : Config} {w : Word} {i : Instr} :
    decodeIn g c w = .ok i ↔ i.wellFormedIn c g = true ∧ w = encode i := by
  rw [decodeIn_ok_iff, wellFormedIn_iff]
  constructor
  · rintro ⟨hdec, hgroup⟩
    obtain ⟨hword, hwf⟩ := encodeDecodeRoundTrip c w i hdec
    exact ⟨⟨hwf, hgroup⟩, hword.symm⟩
  · rintro ⟨⟨hwf, hgroup⟩, rfl⟩
    exact ⟨decode_encode hwf, hgroup⟩

/-! ### Running what was fetched -/

/-- A command from the program runs as it would directly. -/
theorem runCommand_eq_exec {i : Instr} (hi : i.group = .host) (s : State) : runCommand i s = exec i s := by
  cases i with
  | init | send | recv => rfl
  | _ => cases hi

section
variable {s : State} (hlive : s.faults = [])
include hlive

theorem step_of_event {w : Word} {rest : List Word} {i : Instr} (hlegal : s.cfg.legal = true)
    (hs : s.schedule = w :: rest) (h : decodeIn .event s.cfg w = .ok i) :
    step s = exec i { s with schedule := rest } := by
  have hfetch : fetchEvent s = .ok (i, { s with schedule := rest }) := fetchEvent_ok_iff.2 ⟨w, rest, hs, h, rfl⟩
  simp [step, hlegal, hlive, runNextEvent, hfetch]

theorem exec_fg_of_command {w : Word} {rest : List Word} {i : Instr} (hidle : s.fgPhase = .idle)
    (hs : s.program = w :: rest) (h : decodeIn .host s.cfg w = .ok i) :
    exec .fg s = exec i { s with program := rest } := by
  have hfetch : fetchCommand s = .ok (i, { s with program := rest }) := fetchCommand_ok_iff.2 ⟨w, rest, hs, h, rfl⟩
  rw [exec_fg_of_live hlive, microStep_of_idle hidle, startNextCommand, hfetch]
  exact runCommand_eq_exec (decodeIn_group h).1 _

theorem exec_fg_of_no_command (hidle : s.fgPhase = .idle) (hs : s.program = []) :
    exec .fg s = .refused .fgFinished := by
  rw [exec_fg_of_live hlive, microStep_of_idle hidle, startNextCommand, fetchCommand, hs]

/-- The event FG at IDLE runs the program's next command. -/
theorem step_of_command {w : Word} {events cmds : List Word} {i : Instr} (hlegal : s.cfg.legal = true)
    (hs : s.schedule = encode .fg :: events) (hidle : s.fgPhase = .idle) (hp : s.program = w :: cmds)
    (h : decodeIn .host s.cfg w = .ok i) : step s = exec i { s with schedule := events, program := cmds } := by
  rw [step_of_event hlive hlegal hs (decodeIn_iff_encode.2 ⟨rfl, rfl⟩)]
  exact exec_fg_of_command (s := { s with schedule := events }) hlive hidle hp h

end

/-- Settles O11: the event is fetched by `step`, the command by FG at IDLE, and neither fetch changes anything else. -/
theorem stepRunsDecodedInstruction : Obligations.StepRunsDecodedInstruction := by
  unfold Obligations.StepRunsDecodedInstruction
  exact ⟨fun s w rest i hlegal hlive hs h => step_of_event hlive hlegal hs h,
    fun s w events cmds i hlegal hlive hs hidle hp h => step_of_command hlive hlegal hs hidle hp h⟩

/-- Settles O21: a command of the right list that exists is what its word decodes to. -/
theorem fgStartsNextCommand : Obligations.FgStartsNextCommand := by
  unfold Obligations.FgStartsNextCommand
  refine ⟨fun s i rest hlive hidle hwf hp => ?_, fun s hlive hidle hp => exec_fg_of_no_command hlive hidle hp⟩
  exact exec_fg_of_command hlive hidle hp (decodeIn_iff_encode.2 ⟨hwf, rfl⟩)

/-! ### The model's interface (notes/assumptions/8.md) -/

theorem tableWord_toNat (w : Word) : tableWord 16 w.toNat = w := by
  rw [tableWord, Nat.mod_eq_of_lt w.isLt, BitVec.ofNat_toNat, BitVec.setWidth_eq]

/-- The placing looks at the operation code only, which tells the group. -/
theorem isHostWord_encode (i : Instr) : isHostWord (encode i) = decide (i.group = .host) := by
  simp only [isHostWord, opField_encode]
  cases i <;> rfl

/-- Settles O12: the word is placed by its group, and the step takes it from where it was placed. -/
theorem placedWordRunsNext : Obligations.PlacedWordRunsNext := by
  unfold Obligations.PlacedWordRunsNext
  intro s w i hlegal hlive hdec
  have hhost : isHostWord w = decide (i.group = .host) := encode_of_decode hdec ▸ isHostWord_encode i
  rw [State.withFetchWord, tableWord_toNat, placeWord, hhost]
  constructor
  · intro hgroup
    rw [if_neg (by simp [hgroup])]
    exact step_of_event (s := { s with schedule := w :: s.schedule }) hlive hlegal rfl
      (decodeIn_ok_iff.2 ⟨hdec, hgroup⟩)
  · intro hgroup
    rw [if_pos (by simp [hgroup])]
    exact step_of_command
      (s := { s with fgPhase := .idle, program := w :: s.program, schedule := encode .fg :: s.schedule })
      hlive hlegal rfl rfl rfl (decodeIn_ok_iff.2 ⟨hdec, hgroup⟩)

/-! ### When FG has a step (rule R115) -/

/-- At IDLE a command that exists always has its starting step; it may record a fault. -/
theorem exists_exec_of_host {i : Instr} {s : State} (hlive : s.faults = []) (hidle : s.fgPhase = .idle)
    (hwf : i.wellFormedIn s.cfg .host = true) : ∃ t, exec i s = .next t := by
  obtain ⟨hexists, hgroup⟩ := wellFormedIn_iff.1 hwf
  cases i with
  | init => exact ⟨_, exec_init_of_idle hlive hidle⟩
  | send b => exact ⟨_, exec_send_of_idle hlive hidle⟩
  | recv => exact ⟨_, exec_recv_of_idle hlive (wellFormed_iff.1 hexists rfl) hidle⟩
  | _ => cases hgroup

/-- The row IDLE of the table. -/
theorem exists_exec_fg_iff_of_idle {s : State} (hlive : s.faults = []) (hidle : s.fgPhase = .idle) :
    (∃ t, exec .fg s = .next t) ↔
      ∃ i rest, i.wellFormedIn s.cfg .host = true ∧ s.program = encode i :: rest := by
  constructor
  · rintro ⟨t, h⟩
    rw [exec_fg_of_live hlive, microStep_of_idle hidle] at h
    obtain ⟨w, rest, i, hp, hdec, -⟩ := startNextCommand_next h
    obtain ⟨hwf, rfl⟩ := decodeIn_iff_encode.1 hdec
    exact ⟨i, rest, hwf, hp⟩
  · rintro ⟨i, rest, hwf, hp⟩
    rw [exec_fg_of_command hlive hidle hp (decodeIn_iff_encode.2 ⟨hwf, rfl⟩)]
    exact exists_exec_of_host (s := { s with program := rest }) hlive hidle hwf

/-- Settles O22: row by row of the table; only IDLE, S2, S8 and R1 have a condition. -/
theorem fgEnabledExactly : Obligations.FgEnabledExactly := by
  unfold Obligations.FgEnabledExactly
  intro s
  by_cases hlive : s.faults = []
  · cases hp : s.fgPhase with
    | idle => simp [exists_exec_fg_iff_of_idle hlive hp, hlive]
    | s1 => simp [exec_fg_of_s1 hlive hp, hlive]
    | s2 => simp [exec_fg_of_s2 hlive hp, holdUntil_next_iff, hlive]
    | s3 => simp [exec_fg_of_s3 hlive hp, hlive]
    | s4 => simp [exec_fg_of_s4 hlive hp, hlive]
    | s5 => simp [exec_fg_of_s5 hlive hp, hlive]
    | s6 => simp [exec_fg_of_s6 hlive hp, hlive]
    | s7 => simp [exec_fg_of_s7 hlive hp, hlive]
    | s8 => simp [exec_fg_of_s8 hlive hp, holdUntil_next_iff, hlive]
    | r1 => simp [exec_fg_of_r1 hlive hp, holdUntil_next_iff, hlive]
    | r2 => simp [exec_fg_of_r2 hlive hp, hlive]
  · simp only [hlive, false_and, iff_false, not_exists]
    exact fun t h => hlive (faults_eq_nil_of_exec h)

/-! ### Quiescent states (rule R233) -/

theorem quiescent_iff {s : State} :
    s.quiescent = true ↔
      (s.faults = [] ∧ s.fgPhase = .idle ∧ s.program = []) ∧ s.receiving = false ∧ s.ccie = false ∧
      edgeRequested s = false ∧ ccRequested s = false := by
  simp [State.quiescent, State.finished, and_assoc]

/-- In a quiescent state FG is finished and no interrupt is requested, so of the events only ticks and line changes
are left. -/
theorem tick_or_line_of_quiescent {i : Instr} {s t : State} (hq : s.quiescent = true) (hi : i.group = .event)
    (h : exec i s = .next t) : i = .tick ∨ ∃ v, i = .line v := by
  obtain ⟨⟨hlive, hidle, hprog⟩, -, -, hedge, hcc⟩ := quiescent_iff.1 hq
  cases i with
  | tick => exact .inl rfl
  | line v => exact .inr ⟨v, rfl⟩
  | fg => simp [exec_fg_of_no_command hlive hidle hprog] at h
  | irqEdge =>
    have hon := (execIrqEdge_next_iff.1 h).2.1
    simp [edgeEnabled, hedge] at hon
  | irqCc =>
    have hon := (execIrqCc_next_iff.1 h).2.1
    simp [ccEnabled, hcc] at hon
  | _ => cases hi

/-- Settles O54: the step executes an event word from the schedule, which a quiescent state does not read. -/
theorem quiescentOnlyTicksAndLines : Obligations.QuiescentOnlyTicksAndLines := by
  unfold Obligations.QuiescentOnlyTicksAndLines
  intro s t hq h
  obtain ⟨i, rest, hs, hi, hexec⟩ := exec_of_step h
  have hq' : ({ s with schedule := rest } : State).quiescent = true := hq
  exact ⟨i, rest, hs, tick_or_line_of_quiescent hq' hi hexec⟩

end Sys2Proof.Proofs
end

section
/-! PROOFS. A second INIT (70_reset_and_hazards.md rule R231), the frame of a byte (rules R54, R107) and the writes of
the edge handler (41_edge_handler.md rules R131, R132). -/

namespace Sys2Proof.Proofs

open Sys2Proof Sys2Proof.Machine

/-! ### INIT twice (rule R231) -/

/-- INIT's writes over INIT's writes change nothing. -/
theorem initRegisters_idem (s : State) : initRegisters (initRegisters s) = initRegisters s := by
  cases hrx : s.cfg.rxEnabled <;> simp [initRegisters_eq, hrx]

/-- Settles O16: without a fault INIT wrote its registers; it leaves no reception, no enable and IDLE, so the second
INIT is not busy. -/
theorem initIsIdempotent : Obligations.InitIsIdempotent := by
  unfold Obligations.InitIsIdempotent
  intro s t hrecv hlive h
  obtain ⟨hf, -, rfl⟩ := execInit_next_iff.1 h
  cases hb : initBusy s with
  | true => simp [initCommand_of_busy hb, raiseFault_eq hf] at hlive
  | false =>
    rw [initCommand_of_not_busy hb] at hlive ⊢
    have hfree : initBusy (initRegisters s) = false := by simp [initBusy, initRegisters_eq, hrecv]
    rw [exec_init_of_idle hlive (by rw [initRegisters_eq]), initCommand_of_not_busy hfree, initRegisters_idem]

/-! ### The frame (rules R54, R102, R107) -/

theorem getLsbD_frameOf_start (b : Byte) : (frameOf b).getLsbD 0 = false := by
  simp [frameOf, frameBits]

theorem getLsbD_frameOf_data (b : Byte) {i : Nat} (hi : i < 8) : (frameOf b).getLsbD (i + 1) = b.getLsbD i := by
  interval_cases i <;> simp [frameOf, frameBits, zext10]

theorem getLsbD_frameOf_stop (b : Byte) : (frameOf b).getLsbD 9 = true := by
  simp [frameOf, frameBits, zext10]

/-- Settles O29: the bits of the frame, and the rows S1 and S6 that load and frame the byte. -/
theorem frameLayout : Obligations.FrameLayout := by
  unfold Obligations.FrameLayout
  refine ⟨fun b => ⟨getLsbD_frameOf_start b, fun i hi => getLsbD_frameOf_data b hi, getLsbD_frameOf_stop b⟩,
    fun s hlive hp => ?_, fun s hlive hp hw hload => ?_⟩
  · exact ⟨sendS1 s, exec_fg_of_s1 hlive hp, rfl, rfl, rfl⟩
  · refine ⟨sendS6 s, exec_fg_of_s6 hlive hp, ?_⟩
    rw [sendS6_of_written hw, hload, frameOf]

/-! ### The edge handler (rules R131, R132) -/

theorem exec_irqEdge_of_ready {s : State} (hlive : s.faults = []) (he : edgeEnabled s = true) :
    exec .irqEdge s = .next (edgeHandler s) :=
  exec_irqEdge_next_iff.2 ⟨hlive, he, rfl⟩

/-- Arming leaves the pending flag unless P_ARM_CLEARS_FLAG = 1 (D17). -/
theorem ccifg_and_not_armClears (s : State) :
    (s.ccifg && !s.cfg.armClearsFlag) = if s.cfg.armClearsFlag then false else s.ccifg := by
  cases s.cfg.armClearsFlag <;> simp

/-- Settles O36: the arming window decides between the fault and the writes of `armReceive_eq`. -/
theorem edgeHandlerEffect : Obligations.EdgeHandlerEffect := by
  unfold Obligations.EdgeHandlerEffect
  intro s hlive hinit hrx hpin hie hifg
  have he : edgeEnabled s = true := edgeEnabled_iff.2 ⟨hinit, hpin, hrx, hie, hifg⟩
  rw [exec_irqEdge_of_ready hlive he, ← inArmWindow_iff_mem, edgeHandler]
  constructor
  · intro hwindow
    rw [if_pos hwindow, raiseFault_eq hlive]
  · intro hwindow
    rw [if_neg hwindow, armReceive_eq, timerSum_eq, ccifg_and_not_armClears]
    rfl

end Sys2Proof.Proofs
end

section
/-! PROOFS. What no operation reads: P_HANDLER_BINDING (00_scope.md rule R6, D37) and the tick count (10_state.md rule
R39). Both are one fact: every operation commutes with a change of these two elements (`exec_mapUnread`). -/

namespace Sys2Proof.Proofs

open Sys2Proof Sys2Proof.Machine

/-- The state with its handler binding changed by `β` and its tick count changed by `g`. -/
def mapUnread (β : HandlerBinding → HandlerBinding) (g : Nat → Nat) (s : State) : State :=
  { s with cfg := { s.cfg with handlerBinding := β s.cfg.handlerBinding }, now := g s.now }

section
variable {β : HandlerBinding → HandlerBinding} {g : Nat → Nat}

/-! ### Branches, waiting and the marked registers -/

/-- A branch commutes with the change when both of its sides do. -/
theorem ite_mapUnread {c : Prop} [Decidable c] {a b a' b' : State} (ha : a' = mapUnread β g a)
    (hb : b' = mapUnread β g b) : (if c then a' else b') = mapUnread β g (if c then a else b) := by
  rw [ha, hb, apply_ite (mapUnread β g)]

/-- A guarded outcome commutes with the change when the outcome does; a refusal has no state to change. -/
theorem ite_refused_mapNext {c : Prop} [Decidable c] {k k' : Host.Outcome State Fault Refusal} {r : Refusal}
    (hk : k' = mapNext (mapUnread β g) k) :
    (if c then k' else .refused r) = mapNext (mapUnread β g) (if c then k else .refused r) := by
  rw [hk, apply_ite (mapNext (mapUnread β g))]
  rfl

variable (s : State)

theorem whenLive_mapUnread {k k' : Host.Outcome State Fault Refusal} (hk : k' = mapNext (mapUnread β g) k) :
    whenLive (mapUnread β g s) k' = mapNext (mapUnread β g) (whenLive s k) := by
  cases hf : s.faults with
  | nil => rw [whenLive_of_live hf, whenLive_of_live (s := mapUnread β g s) hf, hk]
  | cons f fs => rw [whenLive_of_faulted hf, whenLive_of_faulted (s := mapUnread β g s) hf, mapNext]

/-! ### The host commands and the foreground -/

theorem initCommand_mapUnread : initCommand (mapUnread β g s) = mapUnread β g (initCommand s) := by
  rw [initCommand, initCommand, initRegisters_eq, initRegisters_eq]
  exact ite_mapUnread rfl rfl

theorem execInit_mapUnread : execInit (mapUnread β g s) = mapNext (mapUnread β g) (execInit s) :=
  whenLive_mapUnread s (ite_refused_mapNext (congrArg Host.Outcome.next (initCommand_mapUnread s)))

theorem execSend_mapUnread (b : Byte) : execSend b (mapUnread β g s) = mapNext (mapUnread β g) (execSend b s) :=
  whenLive_mapUnread s (ite_refused_mapNext (congrArg Host.Outcome.next (ite_mapUnread rfl rfl)))

theorem execRecv_mapUnread : execRecv (mapUnread β g s) = mapNext (mapUnread β g) (execRecv s) :=
  whenLive_mapUnread s (ite_refused_mapNext (ite_refused_mapNext
    (congrArg Host.Outcome.next (ite_mapUnread rfl rfl))))

theorem sendS6_mapUnread : sendS6 (mapUnread β g s) = mapUnread β g (sendS6 s) := ite_mapUnread rfl rfl

theorem sendS7_mapUnread : sendS7 (mapUnread β g s) = mapUnread β g (sendS7 s) := by
  rw [sendS7_eq, sendS7_eq]
  rfl

theorem recvR2_mapUnread : recvR2 (mapUnread β g s) = mapUnread β g (recvR2 s) := ite_mapUnread rfl rfl

theorem runCommand_mapUnread (i : Instr) :
    runCommand i (mapUnread β g s) = mapNext (mapUnread β g) (runCommand i s) := by
  cases i with
  | init => exact execInit_mapUnread s
  | send b => exact execSend_mapUnread s b
  | recv => exact execRecv_mapUnread s
  | _ => rfl

/-- The decoder reads of the configuration only whether there is receive support. -/
theorem fetchCommand_mapUnread :
    fetchCommand (mapUnread β g s) = (fetchCommand s).map (Prod.map id (mapUnread β g)) := by
  have hprog : (mapUnread β g s).program = s.program := rfl
  have hdec (w : Word) : decodeIn .host (mapUnread β g s).cfg w = decodeIn .host s.cfg w := rfl
  rw [fetchCommand, fetchCommand, hprog]
  cases s.program with
  | nil => rfl
  | cons w rest =>
    simp only [hdec]
    cases decodeIn .host s.cfg w <;> rfl

theorem startNextCommand_mapUnread :
    startNextCommand (mapUnread β g s) = mapNext (mapUnread β g) (startNextCommand s) := by
  rw [startNextCommand, startNextCommand, fetchCommand_mapUnread]
  cases fetchCommand s with
  | error r => rfl
  | ok p => exact runCommand_mapUnread p.2 p.1

/-- The micro-steps, row by row of the table of rule R115. -/
theorem microStep_mapUnread : microStep (mapUnread β g s) = mapNext (mapUnread β g) (microStep s) := by
  have hphase : (mapUnread β g s).fgPhase = s.fgPhase := rfl
  rw [microStep, microStep, hphase]
  cases s.fgPhase with
  | idle => exact startNextCommand_mapUnread s
  | s2 | s8 | r1 => exact ite_refused_mapNext rfl
  | s6 => exact congrArg Host.Outcome.next (sendS6_mapUnread s)
  | s7 => exact congrArg Host.Outcome.next (sendS7_mapUnread s)
  | r2 => exact congrArg Host.Outcome.next (recvR2_mapUnread s)
  | s1 | s3 | s4 | s5 => rfl

/-! ### The handlers -/

theorem edgeHandler_mapUnread : edgeHandler (mapUnread β g s) = mapUnread β g (edgeHandler s) := by
  rw [edgeHandler, edgeHandler, armReceive_eq, armReceive_eq]
  exact ite_mapUnread rfl rfl

theorem transmitBranch_mapUnread (n : Count) :
    transmitBranch n (mapUnread β g s) = mapUnread β g (transmitBranch n s) :=
  ite_mapUnread rfl (ite_mapUnread rfl rfl)

/-- Sampling, where what follows the sample commutes with the change. -/
theorem sampleRx_mapUnread {k : State → State} (hk : ∀ u, k (mapUnread β g u) = mapUnread β g (k u)) :
    sampleRx (mapUnread β g s) k = mapUnread β g (sampleRx s k) :=
  ite_mapUnread (ite_mapUnread (hk (writeRxsh (markSample s.rxsh) s)) rfl) (hk s)

theorem deliverFrame_mapUnread : deliverFrame (mapUnread β g s) = mapUnread β g (deliverFrame s) :=
  ite_mapUnread (ite_mapUnread rfl rfl) rfl

theorem receiveBranch_mapUnread (n : Count) :
    receiveBranch n (mapUnread β g s) = mapUnread β g (receiveBranch n s) :=
  ite_mapUnread (sampleRx_mapUnread (advanceCompare s) fun u =>
      deliverFrame_mapUnread (reenableEdge { stopTransfer u with receiving := false }))
    (sampleRx_mapUnread (advanceCompare s) fun _ => ite_mapUnread rfl rfl)

theorem ccDispatch_mapUnread : ccDispatch (mapUnread β g s) = mapUnread β g (ccDispatch s) :=
  ite_mapUnread
    (ite_mapUnread rfl (ite_mapUnread (receiveBranch_mapUnread s s.bitcnt) (transmitBranch_mapUnread s s.bitcnt))) rfl

theorem ccHandler_mapUnread : ccHandler (mapUnread β g s) = mapUnread β g (ccHandler s) := by
  refine ite_mapUnread (ccDispatch_mapUnread { s with ccifg := false }) ?_
  cases hreq : ccRequested s with
  | true =>
    rw [ccSharedEntry, ccSharedEntry, readIv_of_requested hreq, readIv_of_requested (s := mapUnread β g s) hreq]
    exact ccDispatch_mapUnread { s with ccifg := false }
  | false =>
    rw [ccSharedEntry_of_not_requested hreq]
    exact ccSharedEntry_of_not_requested (s := mapUnread β g s) hreq

theorem execIrqEdge_mapUnread : execIrqEdge (mapUnread β g s) = mapNext (mapUnread β g) (execIrqEdge s) :=
  whenLive_mapUnread s (ite_refused_mapNext (ite_refused_mapNext
    (congrArg Host.Outcome.next (edgeHandler_mapUnread s))))

theorem execIrqCc_mapUnread : execIrqCc (mapUnread β g s) = mapNext (mapUnread β g) (execIrqCc s) :=
  whenLive_mapUnread s (ite_refused_mapNext (congrArg Host.Outcome.next (ccHandler_mapUnread s)))

/-! ### Ticks, lines and the dispatch -/

theorem timerTick_mapUnread (hg : g (s.now + 1) = g s.now + 1) :
    timerTick (mapUnread β g s) = mapUnread β g (timerTick s) := by
  cases hrun : s.tmode with
  | stop =>
    rw [timerTick_stop hrun, timerTick_stop (s := mapUnread β g s) hrun]
    simp [mapUnread, hg]
  | cont =>
    rw [timerTick_cont hrun, timerTick_cont (s := mapUnread β g s) hrun]
    exact ite_mapUnread (by simp [mapUnread, hg, timerSum, Config.timerModulus])
      (by simp [mapUnread, hg, timerSum, Config.timerModulus])

/-- No operation reads the handler binding or the tick count; TICK adds one to the count. -/
theorem exec_mapUnread (i : Instr) (hg : g (s.now + 1) = g s.now + 1) :
    exec i (mapUnread β g s) = mapNext (mapUnread β g) (exec i s) := by
  cases i with
  | init => exact execInit_mapUnread s
  | send b => exact execSend_mapUnread s b
  | recv => exact execRecv_mapUnread s
  | fg => exact whenLive_mapUnread s (microStep_mapUnread s)
  | irqEdge => exact execIrqEdge_mapUnread s
  | irqCc => exact execIrqCc_mapUnread s
  | tick => exact whenLive_mapUnread s (congrArg Host.Outcome.next (timerTick_mapUnread s hg))
  | line v => exact whenLive_mapUnread s (ite_refused_mapNext rfl)

theorem fetchEvent_mapUnread :
    fetchEvent (mapUnread β g s) = (fetchEvent s).map (Prod.map id (mapUnread β g)) := by
  have hsched : (mapUnread β g s).schedule = s.schedule := rfl
  have hdec (w : Word) : decodeIn .event (mapUnread β g s).cfg w = decodeIn .event s.cfg w := rfl
  rw [fetchEvent, fetchEvent, hsched]
  cases s.schedule with
  | nil => rfl
  | cons w rest =>
    simp only [hdec]
    cases decodeIn .event s.cfg w <;> rfl

/-- No step reads the handler binding or the tick count. -/
theorem step_mapUnread (hg : ∀ n, g (n + 1) = g n + 1) :
    step (mapUnread β g s) = mapNext (mapUnread β g) (step s) := by
  refine ite_refused_mapNext (whenLive_mapUnread s ?_)
  rw [runNextEvent, runNextEvent, fetchEvent_mapUnread]
  cases fetchEvent s with
  | error r => rfl
  | ok p => exact exec_mapUnread p.2 p.1 (hg _)

end

/-- Settles O4: the handler binding is changed and the tick count kept. -/
theorem handlerBindingHasNoEffect : Obligations.HandlerBindingHasNoEffect := by
  unfold Obligations.HandlerBindingHasNoEffect
  exact ⟨fun b i s => exec_mapUnread (β := fun _ => b) (g := id) s i rfl,
    fun b s => step_mapUnread (β := fun _ => b) (g := id) s fun _ => rfl⟩

/-- Settles O49: the tick count is moved and the handler binding kept. -/
theorem tickCountIsNeverRead : Obligations.TickCountIsNeverRead := by
  unfold Obligations.TickCountIsNeverRead
  intro i s n
  have hmoved : ({ s with now := n } : State) = mapUnread id (fun m => n + (m - s.now)) s := by
    simp [mapUnread]
  rw [hmoved]
  exact exec_mapUnread s i (by simp)

end Sys2Proof.Proofs
end

section
/-! PROOFS. The compare handler invoked again and again (42_timer_handler.md section 4): how many invocations a
transfer takes (rule R145), and what the ten samples of a frame leave (rule R146). -/

namespace Sys2Proof.Proofs

open Sys2Proof Sys2Proof.Machine

/-! ### The incoming shift register over the samples of a frame (rules R143, R144) -/

/-- The incoming shift register after the shifting samples `levels`. -/
def shiftIn (v : Shift) (levels : List Bool) : Shift := levels.foldl (fun v l => sampledShift l v >>> 1) v

/-- The ten levels of a frame as the register holds them: start sample at bit 0, stop sample at bit 9. -/
def sampledFrame (start : Bool) (b : Byte) (stop : Bool) : Shift :=
  (BitVec.ofBool stop).setWidth 10 <<< 9 ||| b.setWidth 10 <<< 1 ||| (BitVec.ofBool start).setWidth 10

/-- A sample is ORed into bit 9 (rule R143). -/
theorem getElem_sampledShift (level : Bool) (v : Shift) {i : Nat} (hi : i < 10) :
    (sampledShift level v)[i] = (v[i] || (level && decide (i = 9))) := by
  cases level with
  | false => simp [sampledShift]
  | true => interval_cases i <;> simp [sampledShift, markSample]

/-- The first nine of the ten levels of a frame, with a start level of its own. -/
def shiftingLevels (start : Bool) (b : Byte) : List Bool :=
  [start, b.getLsbD 0, b.getLsbD 1, b.getLsbD 2, b.getLsbD 3, b.getLsbD 4, b.getLsbD 5, b.getLsbD 6, b.getLsbD 7]

/-- Each sample enters at bit 9 and is shifted down by those after it, so ten of them fill the register. -/
theorem sampledShift_shiftIn (start : Bool) (b : Byte) (stop : Bool) :
    sampledShift stop (shiftIn 0#10 (shiftingLevels start b)) = sampledFrame start b stop := by
  ext i hi
  interval_cases i <;> simp [getElem_sampledShift, shiftIn, shiftingLevels, sampledFrame]

theorem validFrame_sampledFrame (start : Bool) (b : Byte) (stop : Bool) :
    validFrame (sampledFrame start b stop) = (!start && stop) := by
  rw [Bool.eq_iff_iff, validFrame_iff, and_mask_eq_iff]
  simp [sampledFrame]

theorem frameData_sampledFrame (start : Bool) (b : Byte) (stop : Bool) :
    frameData (sampledFrame start b stop) = b.setWidth 10 := by
  ext i hi
  interval_cases i <;> simp [frameData, sampledFrame]

/-- What a rejected stop sample leaves in the register. -/
theorem sampledFrame_of_low (b : Byte) : sampledFrame false b false = (b.setWidth 10 : Shift) <<< 1 := by
  simp [sampledFrame]

/-! ### One invocation -/

/-- The bit counter after one more invocation. -/
theorem ofNat_succ_sub_one (n : Nat) : BitVec.ofNat 4 (n + 1) - 1#4 = BitVec.ofNat 4 n := by
  bv_omega

theorem ofNat_succ_ne_zero {n : Nat} (hn : n < 10) : BitVec.ofNat 4 (n + 1) ≠ 0#4 := by
  bv_omega

theorem ofNat_le_ten {n : Nat} (hn : n ≤ 10) : BitVec.ofNat 4 n ≤ 10#4 := by
  bv_omega

theorem handleWithLevel_of_enabled {s : State} (hie : s.ccie = true) (level : Bool) :
    handleWithLevel s level = ccDispatch { s with rxIn := level, ccifg := false } :=
  ccHandler_of_requested (ccRequested_iff.2 ⟨hie, rfl⟩)

/-! ### A transmission (rules R142, R145) -/

/-- A transmission with `n` bits still to read. -/
structure Sending (n : Nat) (s : State) : Prop where
  ccie : s.ccie = true
  receiving : s.receiving = false
  txshWritten : s.txshWritten = true
  bitcntWritten : s.bitcntWritten = true
  bitcnt : s.bitcnt = BitVec.ofNat 4 n
  tmode : s.tmode = .cont

/-- The RX level and the compare flag are no part of a transmission. -/
theorem Sending.withLevel {n : Nat} {s : State} (h : Sending n s) (level flag : Bool) :
    Sending n { s with rxIn := level, ccifg := flag } :=
  ⟨h.ccie, h.receiving, h.txshWritten, h.bitcntWritten, h.bitcnt, h.tmode⟩

/-- The dispatch reads one bit. -/
theorem Sending.ccDispatch_bit {n : Nat} {s : State} (h : Sending (n + 1) s) (hn : n < 10) :
    ccDispatch s =
      { s with
        ccr := timerSum s.cfg s.ccr s.cfg.bitTime, outmod := outModeOfBit (s.txsh.getLsbD 0), txsh := s.txsh >>> 1,
        txshWritten := true, bitcnt := BitVec.ofNat 4 n, bitcntWritten := true } := by
  have hbit : s.bitcnt ≠ 0#4 := h.bitcnt ▸ ofNat_succ_ne_zero hn
  rw [ccDispatch_of_transmitting h.bitcntWritten (h.bitcnt ▸ ofNat_le_ten hn) h.receiving,
    transmitBranch_bit hbit h.txshWritten, h.bitcnt, ofNat_succ_sub_one]

/-- The dispatch that finds no bit left stops the timer. -/
theorem Sending.ccDispatch_end {s : State} (h : Sending 0 s) :
    ccDispatch s = { s with ccr := timerSum s.cfg s.ccr s.cfg.bitTime, tmode := .stop, ccie := false } := by
  have hend : transmitBranch s.bitcnt s = transmitBranch 0#4 s := congrArg (transmitBranch · s) h.bitcnt
  rw [ccDispatch_of_transmitting h.bitcntWritten (h.bitcnt ▸ ofNat_le_ten (by decide)) h.receiving, hend,
    transmitBranch_end]

theorem Sending.handle {n : Nat} {s : State} (h : Sending (n + 1) s) (hn : n < 10) (level : Bool) :
    Sending n (handleWithLevel s level) := by
  rw [handleWithLevel_of_enabled h.ccie, (h.withLevel level false).ccDispatch_bit hn]
  exact ⟨h.ccie, h.receiving, rfl, rfl, rfl, h.tmode⟩

theorem Sending.foldl {levels : List Bool} : ∀ {n : Nat} {s : State}, Sending (n + levels.length) s →
    n + levels.length ≤ 10 → Sending n (levels.foldl handleWithLevel s) := by
  induction levels with
  | nil => exact fun h _ => h
  | cons level levels ih => exact fun h hn => ih (h.handle hn level) (Nat.le_of_succ_le hn)

theorem Sending.handle_end {s : State} (h : Sending 0 s) (level : Bool) :
    (handleWithLevel s level).bitcnt = 0#4 ∧ (handleWithLevel s level).ccie = false ∧
      (handleWithLevel s level).tmode = .stop := by
  rw [handleWithLevel_of_enabled h.ccie, (h.withLevel level false).ccDispatch_end]
  exact ⟨h.bitcnt, rfl, rfl⟩

/-! ### A reception (rules R143, R145, R146) -/

/-- A reception begun in `s₀` with `n` shifting samples still to take and `v` in the incoming shift register. -/
structure Sampling (s₀ : State) (n : Nat) (v : Shift) (s : State) : Prop where
  ccie : s.ccie = true
  receiving : s.receiving = true
  rxshWritten : s.rxshWritten = true
  bitcntWritten : s.bitcntWritten = true
  bitcnt : s.bitcnt = BitVec.ofNat 4 n
  rxsh : s.rxsh = v
  tmode : s.tmode = s₀.tmode
  byteReady : s.byteReady = s₀.byteReady

/-- The RX level and the compare flag are no part of it. -/
theorem Sampling.withLevel {s₀ : State} {n : Nat} {v : Shift} {s : State} (h : Sampling s₀ n v s)
    (level flag : Bool) : Sampling s₀ n v { s with rxIn := level, ccifg := flag } :=
  ⟨h.ccie, h.receiving, h.rxshWritten, h.bitcntWritten, h.bitcnt, h.rxsh, h.tmode, h.byteReady⟩

/-- The dispatch takes one sample. -/
theorem Sampling.ccDispatch_bit {s₀ : State} {n : Nat} {v : Shift} {s : State} (h : Sampling s₀ (n + 1) v s)
    (hn : n < 10) :
    ccDispatch s =
      { s with
        ccr := timerSum s.cfg s.ccr s.cfg.bitTime, rxsh := sampledShift s.rxIn v >>> 1, rxshWritten := true,
        bitcnt := BitVec.ofNat 4 n, bitcntWritten := true } := by
  have hbit : s.bitcnt ≠ 0#4 := h.bitcnt ▸ ofNat_succ_ne_zero hn
  rw [ccDispatch_of_receiving h.bitcntWritten (h.bitcnt ▸ ofNat_le_ten hn) h.receiving,
    receiveBranch_bit hbit h.rxshWritten, h.bitcnt, ofNat_succ_sub_one, h.rxsh]

/-- The dispatch with no shifting sample left takes the stop sample, ends the reception and stops the timer. -/
theorem Sampling.ccDispatch_end {s₀ : State} {v : Shift} {s : State} (h : Sampling s₀ 0 v s) :
    ccDispatch s =
      { s with
        ccr := timerSum s.cfg s.ccr s.cfg.bitTime, tmode := .stop, ccie := false, receiving := false,
        rxIfg := false, rxIe := true, rxshWritten := true,
        rxsh := if validFrame (sampledShift s.rxIn v) then frameData (sampledShift s.rxIn v)
          else sampledShift s.rxIn v,
        byteReady := s₀.byteReady || validFrame (sampledShift s.rxIn v) } := by
  have hend : receiveBranch s.bitcnt s = receiveBranch 0#4 s := congrArg (receiveBranch · s) h.bitcnt
  rw [ccDispatch_of_receiving h.bitcntWritten (h.bitcnt ▸ ofNat_le_ten (by decide)) h.receiving, hend,
    receiveBranch_end h.rxshWritten, h.rxsh, h.byteReady]

theorem Sampling.handle {s₀ : State} {n : Nat} {v : Shift} {s : State} (h : Sampling s₀ (n + 1) v s) (hn : n < 10)
    (level : Bool) : Sampling s₀ n (sampledShift level v >>> 1) (handleWithLevel s level) := by
  rw [handleWithLevel_of_enabled h.ccie, (h.withLevel level false).ccDispatch_bit hn]
  exact ⟨h.ccie, h.receiving, rfl, rfl, rfl, rfl, h.tmode, h.byteReady⟩

theorem Sampling.foldl {s₀ : State} {levels : List Bool} : ∀ {n : Nat} {v : Shift} {s : State},
    Sampling s₀ (n + levels.length) v s → n + levels.length ≤ 10 →
    Sampling s₀ n (shiftIn v levels) (levels.foldl handleWithLevel s) := by
  induction levels with
  | nil => exact fun h _ => h
  | cons level levels ih => exact fun h hn => ih (h.handle hn level) (Nat.le_of_succ_le hn)

/-- Settles O42: one bit or sample less an invocation, and the invocation at 0 ends the transfer. -/
theorem invocationCounts : Obligations.InvocationCounts := by
  unfold Obligations.InvocationCounts
  constructor
  · intro s levels hie hrecv hw hcw hcount hrun
    have hstart : Sending 10 s := ⟨hie, hrecv, hw, hcw, hcount, hrun⟩
    refine ⟨fun hlen => ?_, fun hlen => ?_⟩
    · have h : Sending (10 - levels.length) (levels.foldl handleWithLevel s) :=
        Sending.foldl (by rwa [Nat.sub_add_cancel hlen]) (by omega)
      exact ⟨by rw [h.bitcnt, BitVec.toNat_ofNat, Nat.mod_eq_of_lt (by omega)], h.ccie, h.tmode⟩
    · obtain rfl | ⟨first, last, rfl⟩ := levels.eq_nil_or_concat
      · simp at hlen
      · have hten : 10 = 0 + first.length := by simpa [eq_comm] using hlen
        have h : Sending 0 (first.foldl handleWithLevel s) := Sending.foldl (hten ▸ hstart) hten.ge
        rw [List.concat_eq_append, List.foldl_append]
        exact h.handle_end last
  · intro s levels hie hrecv hw hcw hcount hrun
    have hstart : Sampling s 9 s.rxsh s := ⟨hie, hrecv, hw, hcw, hcount, rfl, rfl, rfl⟩
    refine ⟨fun hlen => ?_, fun hlen => ?_⟩
    · have h : Sampling s (9 - levels.length) (shiftIn s.rxsh levels) (levels.foldl handleWithLevel s) :=
        Sampling.foldl (by rwa [Nat.sub_add_cancel hlen]) (by omega)
      exact ⟨by rw [h.bitcnt, BitVec.toNat_ofNat, Nat.mod_eq_of_lt (by omega)], h.ccie, h.tmode.trans hrun,
        h.receiving⟩
    · obtain rfl | ⟨first, last, rfl⟩ := levels.eq_nil_or_concat
      · simp at hlen
      · have hnine : 9 = 0 + first.length := by simpa [eq_comm] using hlen
        have h : Sampling s 0 (shiftIn s.rxsh first) (first.foldl handleWithLevel s) :=
          Sampling.foldl (hnine ▸ hstart) (by omega)
        rw [List.concat_eq_append, List.foldl_append, List.foldl_cons, List.foldl_nil,
          handleWithLevel_of_enabled h.ccie, (h.withLevel last false).ccDispatch_end]
        exact ⟨h.bitcnt, rfl, rfl, rfl⟩

/-- The ten samples of a frame from the state the edge handler leaves. -/
theorem handle_frame {s : State} (h : Sampling s 9 0#10 s) (start : Bool) (b : Byte) (stop : Bool) :
    ((shiftingLevels start b ++ [stop]).foldl handleWithLevel s).byteReady = (s.byteReady || (!start && stop)) ∧
    (start = false → stop = true →
      ((shiftingLevels start b ++ [stop]).foldl handleWithLevel s).rxsh = b.setWidth 10) := by
  have hnine : Sampling s 0 (shiftIn 0#10 (shiftingLevels start b))
      ((shiftingLevels start b).foldl handleWithLevel s) := Sampling.foldl h (by simp [shiftingLevels])
  rw [List.foldl_append, List.foldl_cons, List.foldl_nil, handleWithLevel_of_enabled hnine.ccie,
    (hnine.withLevel stop false).ccDispatch_end, sampledShift_shiftIn, validFrame_sampledFrame, frameData_sampledFrame]
  exact ⟨rfl, fun hstart hstop => by simp [hstart, hstop]⟩

/-- Settles O43: the register holds the ten levels, and the validator accepts start 0 with stop 1 only. -/
theorem frameRoundTrip : Obligations.FrameRoundTrip := by
  unfold Obligations.FrameRoundTrip
  intro s b hie hrecv hw hcw hcount hsh
  have hstart : Sampling s 9 0#10 s := ⟨hie, hrecv, hw, hcw, hcount, hsh, rfl, rfl⟩
  obtain ⟨hready, hbyte⟩ := handle_frame hstart false b true
  obtain ⟨hlow, -⟩ := handle_frame hstart false b false
  refine ⟨⟨hbyte rfl rfl, hready.trans (by simp)⟩, hlow.trans (by simp), fun stop => ?_⟩
  obtain ⟨hbad, -⟩ := handle_frame hstart true b stop
  exact hbad.trans (by simp)

end Sys2Proof.Proofs
end

section
/-! PROOFS. Time: runs of ticks and their matches (43_timer_and_lines.md rules R160, R161), and the two timed
schedules of 70_reset_and_hazards.md: the transmit waveform (rule R250) and the sampling schedule (rules R245, R251). -/

namespace Sys2Proof.Proofs

open Sys2Proof Sys2Proof.Machine

/-! ### Timer sums (rule R10) -/

theorem timerSum_zero {c : Config} {a : Nat} (ha : a < c.timerModulus) : timerSum c a 0 = a := Nat.mod_eq_of_lt ha

theorem timerSum_timerSum (c : Config) (a m n : Nat) : timerSum c (timerSum c a m) n = timerSum c a (m + n) := by
  rw [timerSum, timerSum, timerSum, Nat.mod_add_mod, Nat.add_assoc]

/-- Two sums less than 2^W apart differ. -/
theorem timerSum_ne_of_lt {c : Config} {a m n : Nat} (hlt : m < n) (hwrap : n < m + c.timerModulus) :
    timerSum c a m ≠ timerSum c a n := by
  intro h
  have hmod : m ≡ n [MOD c.timerModulus] := Nat.ModEq.add_left_cancel' a h
  have hdvd : c.timerModulus ∣ n - m := (Nat.modEq_iff_dvd' hlt.le).1 hmod
  exact absurd (Nat.le_of_dvd (Nat.sub_pos_of_lt hlt) hdvd) (by omega)

/-! ### Runs of operations -/

theorem play_append (is js : List Instr) (s : State) :
    State.play (is ++ js) s = (State.play is s).bind (State.play js) := by
  induction is generalizing s with
  | nil => rfl
  | cons i is ih =>
    simp only [List.cons_append, State.play]
    cases nextState? (exec i s) with
    | none => rfl
    | some t => exact ih t

/-- An operation that answers a next state is the first step of a run. -/
theorem play_cons {i : Instr} {is : List Instr} {s t : State} (h : exec i s = .next t) :
    State.play (i :: is) s = State.play is t := by
  simp [State.play, h, nextState?]

theorem ticks_add (m n : Nat) : ticks (m + n) = ticks m ++ ticks n := (List.replicate_append_replicate).symm

/-! ### A run of ticks (rules R160, R161) -/

/-- The state after `n` ticks of a running timer whose next match is `d` ticks ahead, before the match after it. -/
def runTicks (d n : Nat) (s : State) : State :=
  { s with
    now := s.now + n, tar := timerSum s.cfg s.tar n, ccifg := s.ccifg || decide (d ≤ n),
    out := if d ≤ n then outAfterMatch s.outmod s.out else s.out }

/-- One more tick: the match is the `d`-th tick, and neither an earlier nor one of the next 2^W ticks. -/
theorem timerTick_runTicks {s : State} {d n : Nat} (hrun : s.tmode = .cont) (hd : d ≤ s.cfg.timerModulus)
    (hccr : s.ccr = timerSum s.cfg s.tar d) (hn : n + 1 < d + s.cfg.timerModulus) :
    timerTick (runTicks d n s) = runTicks d (n + 1) s := by
  have hnext : timerSum s.cfg (timerSum s.cfg s.tar n) 1 = timerSum s.cfg s.tar (n + 1) := timerSum_timerSum ..
  obtain hbefore | hmatch | hafter := lt_trichotomy (n + 1) d
  · have hne : timerSum s.cfg s.tar (n + 1) ≠ s.ccr := hccr ▸ timerSum_ne_of_lt hbefore (by omega)
    rw [timerTick_of_no_match (s := runTicks d n s) hrun (by rwa [runTicks, hnext])]
    simp [runTicks, hnext, Nat.not_le.2 hbefore, show ¬ d ≤ n by omega, Nat.add_assoc]
  · have heq : timerSum s.cfg s.tar (n + 1) = s.ccr := by rw [hccr, hmatch]
    rw [timerTick_of_match (s := runTicks d n s) hrun (by rwa [runTicks, hnext])]
    simp [runTicks, hnext, hmatch.ge, show ¬ d ≤ n by omega, Nat.add_assoc]
  · have hne : timerSum s.cfg s.tar (n + 1) ≠ s.ccr := hccr ▸ (timerSum_ne_of_lt hafter hn).symm
    rw [timerTick_of_no_match (s := runTicks d n s) hrun (by rwa [runTicks, hnext])]
    simp [runTicks, hnext, hafter.le, show d ≤ n by omega, Nat.add_assoc]

theorem play_ticks {s : State} {d : Nat} (hlive : s.faults = []) (hrun : s.tmode = .cont)
    (htar : s.tar < s.cfg.timerModulus) (hpos : 1 ≤ d) (hd : d ≤ s.cfg.timerModulus)
    (hccr : s.ccr = timerSum s.cfg s.tar d) (n : Nat) (hn : n < d + s.cfg.timerModulus) :
    State.play (ticks n) s = some (runTicks d n s) := by
  induction n with
  | zero => simp [ticks, State.play, runTicks, timerSum_zero htar, show ¬ d ≤ 0 by omega]
  | succ n ih =>
    rw [ticks_add, play_append, ih (by omega), ← timerTick_runTicks hrun hd hccr hn]
    exact play_cons (exec_tick_of_live (s := runTicks d n s) hlive)

/-- Settles O46: the run of ticks, ended before the match and at it. -/
theorem nextMatchAfterExactly : Obligations.NextMatchAfterExactly := by
  unfold Obligations.NextMatchAfterExactly
  intro s d n hlive hrun htar hpos hd hccr
  have hplay (hn : n ≤ d) : State.play (ticks n) s = some (runTicks d n s) :=
    play_ticks hlive hrun htar hpos hd hccr n (by omega)
  constructor
  · intro hn
    rw [hplay hn.le]
    simp [runTicks, Nat.not_le.2 hn]
  · intro hn
    rw [hplay hn.le]
    simp [runTicks, compareMatch, hn]

/-! ### A line change among ticks (rule R163) -/

/-- A tick and a line change write different elements. -/
theorem timerTick_setLine (v : Bool) (s : State) : timerTick (setLine v s) = setLine v (timerTick s) := by
  cases hrun : s.tmode with
  | stop =>
    rw [timerTick_stop hrun, timerTick_stop (s := setLine v s) hrun]
    rfl
  | cont =>
    by_cases hmatch : timerSum s.cfg s.tar 1 = s.ccr
    · rw [timerTick_of_match hrun hmatch, timerTick_of_match (s := setLine v s) hrun hmatch]
      rfl
    · rw [timerTick_of_no_match hrun hmatch, timerTick_of_no_match (s := setLine v s) hrun hmatch]
      rfl

theorem timerTick_faults (s : State) : (timerTick s).faults = s.faults := by
  cases hrun : s.tmode with
  | stop => rw [timerTick_stop hrun]
  | cont => rw [timerTick_cont hrun]; split <;> rfl

/-- In a run of ticks it does not matter when the line changes: it may as well change at once. -/
theorem play_ticks_line {v : Bool} {is : List Instr} (n : Nat) {s : State} (hlive : s.faults = [])
    (hrx : s.cfg.rxEnabled = true) :
    State.play (ticks n ++ .line v :: is) s = State.play (ticks n ++ is) (setLine v s) := by
  induction n generalizing s with
  | zero => exact play_cons (exec_line_of_rx hlive hrx)
  | succ n ih =>
    have htick : exec .tick s = .next (timerTick s) := exec_tick_of_live hlive
    have htick' : exec .tick (setLine v s) = .next (timerTick (setLine v s)) :=
      exec_tick_of_live (s := setLine v s) hlive
    have hlive' : (timerTick s).faults = [] := by rw [timerTick_faults, hlive]
    have hrx' : (timerTick s).cfg.rxEnabled = true := by rw [cfg_of_exec htick, hrx]
    calc State.play (ticks (n + 1) ++ .line v :: is) s
        = State.play (ticks n ++ .line v :: is) (timerTick s) := play_cons htick
      _ = State.play (ticks n ++ is) (setLine v (timerTick s)) := ih hlive' hrx'
      _ = State.play (ticks n ++ is) (timerTick (setLine v s)) := by rw [timerTick_setLine]
      _ = State.play (ticks (n + 1) ++ is) (setLine v s) := (play_cons htick').symm

/-! ### A transfer on the clock -/

/-- The state in which the compare handler dispatches that runs after `n` ticks, one of them the match. -/
def atDispatch (n : Nat) (s : State) : State :=
  { s with
    now := s.now + n, tar := timerSum s.cfg s.tar n, ccifg := false, out := outAfterMatch s.outmod s.out }

/-- A live block with no compare flag pending, `elapsed` ticks after `s₀`, whose compare register stands at `due`
ticks after `s₀`. -/
structure Clocked (s₀ : State) (elapsed due : Nat) (s : State) : Prop where
  cfg : s.cfg = s₀.cfg
  faults : s.faults = []
  initialized : s.initialized = true
  ccifg : s.ccifg = false
  fgPhase : s.fgPhase = s₀.fgPhase
  now : s.now = s₀.now + elapsed
  tar : s.tar = timerSum s₀.cfg s₀.tar elapsed
  ccr : s.ccr = timerSum s₀.cfg s₀.tar due

theorem Clocked.dispatch {s₀ s : State} {elapsed due : Nat} (h : Clocked s₀ elapsed due s) (n : Nat) :
    Clocked s₀ (elapsed + n) due (atDispatch n s) :=
  { h with
    ccifg := rfl
    now := by simp [atDispatch, h.now, Nat.add_assoc]
    tar := by simp only [atDispatch, h.cfg, h.tar, timerSum_timerSum] }

/-- The compare register of a transfer moves on by one bit time from its own value (rule R28). -/
theorem Clocked.advance {s₀ s : State} {elapsed due : Nat} (h : Clocked s₀ elapsed due s) :
    timerSum s.cfg s.ccr s.cfg.bitTime = timerSum s₀.cfg s₀.tar (due + s₀.cfg.bitTime) := by
  rw [h.cfg, h.ccr, timerSum_timerSum]

/-- The ticks to the next match and past it, then the handler: it dispatches with the flag cleared. -/
theorem Clocked.play_handler {s₀ s : State} {elapsed due n : Nat} {is : List Instr} (h : Clocked s₀ elapsed due s)
    (hie : s.ccie = true) (hrun : s.tmode = .cont) (hahead : elapsed < due)
    (hwrap : due ≤ elapsed + s₀.cfg.timerModulus) (hreach : due ≤ elapsed + n)
    (honce : elapsed + n < due + s₀.cfg.timerModulus) :
    State.play (ticks n ++ .irqCc :: is) s = State.play is (ccDispatch (atDispatch n s)) := by
  have htar : s.tar < s.cfg.timerModulus := by rw [h.cfg, h.tar]; exact timerSum_lt ..
  have hccr : s.ccr = timerSum s.cfg s.tar (due - elapsed) := by
    rw [h.cfg, h.tar, h.ccr, timerSum_timerSum, Nat.add_sub_cancel' hahead.le]
  have hmatch : due - elapsed ≤ n := by omega
  have hticks := play_ticks h.faults hrun htar (by omega) (by rw [h.cfg]; omega) hccr n (by rw [h.cfg]; omega)
  rw [play_append, hticks]
  refine play_cons (exec_irqCc_of_dispatch (s := runTicks (due - elapsed) n s) h.faults h.initialized hie ?_ ?_)
  · simp [runTicks, hmatch]
  · simp [runTicks, atDispatch, hmatch]

/-- The bounds of a legal configuration that the schedules rest on (rule R8). -/
theorem bounds_of_legal {c : Config} (h : c.legal = true) :
    c.bitTime < c.timerModulus ∧ 1 ≤ c.halfBitTime ∧ c.halfBitTime < c.bitTime := by
  obtain ⟨-, -, -, -, -, hbit, hhalf, hless⟩ := (legal_iff c).1 h
  exact ⟨hbit, hhalf, hless⟩

/-! ### The transmit waveform (rule R250) -/

/-- After match `n` and its handler of a transmission of `b` begun in `s₀`: the output stands at the level of match
`n`, and the output mode makes the next match drive the level of match `n + 1`. -/
structure Transmitting (s₀ : State) (b : Byte) (lat : Nat → Nat) (n : Nat) (s : State) : Prop where
  clocked : Clocked s₀ (n * s₀.cfg.bitTime + lat n - lat 0) ((n + 1) * s₀.cfg.bitTime - lat 0) s
  sending : Sending (10 - n) s
  txsh : s.txsh = frameOf b >>> n
  out : s.out = levelAfterMatch b n
  next : outAfterMatch s.outmod s.out = levelAfterMatch b (n + 1)

/-- The output mode of a bit drives the bit (rules R142, R162). -/
theorem outAfterMatch_outModeOfBit (bit out : Bool) : outAfterMatch (outModeOfBit bit) out = bit := by
  cases bit <;> rfl

/-- From match 2 on the levels are the frame's bits (rule R250). -/
theorem levelAfterMatch_add_two (b : Byte) (n : Nat) : levelAfterMatch b (n + 2) = (frameOf b).getLsbD n := by
  simp [levelAfterMatch]

section
variable {s₀ s : State} {b : Byte} {lat : Nat → Nat} {n : Nat} (h : Transmitting s₀ b lat n s)
  (hlegal : s₀.cfg.legal = true) (hlat : ∀ k, lat k < s₀.cfg.bitTime)
include h hlegal hlat

/-- One more round of the schedule: the ticks up to match `n + 1` and those of its latency, and the handler. -/
theorem Transmitting.play_round (hplay : State.play (transmitSchedule s₀.cfg.bitTime lat n) s₀ = some s) :
    State.play (transmitSchedule s₀.cfg.bitTime lat (n + 1)) s₀ =
      some (ccDispatch (atDispatch (s₀.cfg.bitTime - lat n + lat (n + 1)) s)) ∧
    Clocked s₀ ((n + 1) * s₀.cfg.bitTime + lat (n + 1) - lat 0) ((n + 1) * s₀.cfg.bitTime - lat 0)
      (atDispatch (s₀.cfg.bitTime - lat n + lat (n + 1)) s) := by
  obtain ⟨hbit, -⟩ := bounds_of_legal hlegal
  have h0 := hlat 0
  have hn := hlat n
  have hnext := hlat (n + 1)
  have hsucc : (n + 1) * s₀.cfg.bitTime = n * s₀.cfg.bitTime + s₀.cfg.bitTime := Nat.succ_mul ..
  have hlate : lat 0 ≤ n * s₀.cfg.bitTime + lat n := by
    cases n with
    | zero => simp
    | succ m => rw [Nat.succ_mul]; omega
  constructor
  · rw [transmitSchedule, List.append_assoc, List.append_assoc, play_append, hplay, ← List.append_assoc, ← ticks_add]
    exact h.clocked.play_handler h.sending.ccie h.sending.tmode (by omega) (by omega) (by omega) (by omega)
  · have helapsed : n * s₀.cfg.bitTime + lat n - lat 0 + (s₀.cfg.bitTime - lat n + lat (n + 1)) =
        (n + 1) * s₀.cfg.bitTime + lat (n + 1) - lat 0 := by omega
    exact helapsed ▸ h.clocked.dispatch _

end

theorem Sending.dispatch {n : Nat} {s : State} (h : Sending n s) (k : Nat) : Sending n (atDispatch k s) :=
  ⟨h.ccie, h.receiving, h.txshWritten, h.bitcntWritten, h.bitcnt, h.tmode⟩

/-- The handler after match `n + 1`, with bits left, prepares the level of match `n + 2`. -/
theorem Transmitting.handle {s₀ s : State} {b : Byte} {lat : Nat → Nat} {n k : Nat} (h : Transmitting s₀ b lat n s)
    (hn : n < 10) (hlat : lat 0 < s₀.cfg.bitTime)
    (hclock : Clocked s₀ ((n + 1) * s₀.cfg.bitTime + lat (n + 1) - lat 0) ((n + 1) * s₀.cfg.bitTime - lat 0)
      (atDispatch k s)) :
    Transmitting s₀ b lat (n + 1) (ccDispatch (atDispatch k s)) := by
  have hsend : Sending (10 - (n + 1) + 1) s := (show 10 - n = 10 - (n + 1) + 1 by omega) ▸ h.sending
  rw [(hsend.dispatch k).ccDispatch_bit (by omega)]
  have hdue : (n + 1) * s₀.cfg.bitTime - lat 0 + s₀.cfg.bitTime = (n + 1 + 1) * s₀.cfg.bitTime - lat 0 := by
    have h1 : (n + 1 + 1) * s₀.cfg.bitTime = (n + 1) * s₀.cfg.bitTime + s₀.cfg.bitTime := Nat.succ_mul ..
    have h2 : (n + 1) * s₀.cfg.bitTime = n * s₀.cfg.bitTime + s₀.cfg.bitTime := Nat.succ_mul ..
    omega
  have hbit : s.txsh.getLsbD 0 = (frameOf b).getLsbD n := by simp [h.txsh]
  exact
    { clocked := { hclock with ccr := hdue ▸ hclock.advance }
      sending := ⟨hsend.ccie, hsend.receiving, rfl, rfl, rfl, hsend.tmode⟩
      txsh := by rw [BitVec.shiftRight_add, ← h.txsh]; rfl
      out := h.next
      next := by rw [outAfterMatch_outModeOfBit, levelAfterMatch_add_two]; exact hbit }

/-- The first ten rounds of a transmission. -/
theorem exists_play_transmitSchedule {s : State} {b : Byte} {lat : Nat → Nat} (h : Transmitting s b lat 0 s)
    (hlegal : s.cfg.legal = true) (hlat : ∀ k, lat k < s.cfg.bitTime) (n : Nat) (hn : n ≤ 10) :
    ∃ t, State.play (transmitSchedule s.cfg.bitTime lat n) s = some t ∧ Transmitting s b lat n t := by
  induction n with
  | zero => exact ⟨s, rfl, h⟩
  | succ n ih =>
    obtain ⟨t, hplay, ht⟩ := ih (by omega)
    obtain ⟨hround, hclock⟩ := ht.play_round hlegal hlat hplay
    exact ⟨_, hround, ht.handle (by omega) (hlat 0) hclock⟩

/-- Settles O59: ten rounds read the ten bits, and the handler of the eleventh match stops the timer. -/
theorem transmitWaveform : Obligations.TransmitWaveform := by
  unfold Obligations.TransmitWaveform
  intro s b lat n hlegal hlive hinit hrecv hrun hie hifg hmode hout htxsh hw hcount hcw htar hlat hccr hn
  have hstart : Transmitting s b lat 0 s :=
    { clocked := ⟨rfl, hlive, hinit, hifg, rfl, by simp, by simp [timerSum_zero htar], by simpa using hccr⟩
      sending := ⟨hie, hrecv, hw, hcw, hcount, hrun⟩
      txsh := by simpa using htxsh
      out := hout
      next := by rw [hmode]; rfl }
  obtain hlt | rfl := hn.lt_or_eq
  · obtain ⟨t, hplay, ht⟩ := exists_play_transmitSchedule hstart hlegal hlat n (by omega)
    exact ⟨t, hplay, ht.out, ht.clocked.tar, ht.clocked.now, fun _ => ⟨ht.sending.tmode, ht.sending.ccie⟩,
      fun hend => absurd hend hlt.ne, ht.clocked.fgPhase, ht.clocked.faults⟩
  · obtain ⟨t, hplay, ht⟩ := exists_play_transmitSchedule hstart hlegal hlat 10 le_rfl
    obtain ⟨hround, hclock⟩ := ht.play_round hlegal hlat hplay
    refine ⟨_, hround, ?_⟩
    rw [(ht.sending.dispatch _).ccDispatch_end]
    exact ⟨ht.next, hclock.tar, hclock.now, fun h => absurd h (by decide), fun _ => ⟨rfl, rfl⟩, hclock.fgPhase,
      hclock.faults⟩

end Sys2Proof.Proofs
end

section
/-! PROOFS. The sampling schedule of a reception (70_reset_and_hazards.md rules R245, R251): whenever the line changes
between two samples, a handler less than a bit time late samples the level of its own bit. -/

namespace Sys2Proof.Proofs

open Sys2Proof Sys2Proof.Machine

/-! ### Between two samples -/

/-- The level and the edge flag are read by no clock. -/
theorem Clocked.withLine {s₀ s : State} {elapsed due : Nat} (h : Clocked s₀ elapsed due s) (v : Bool) :
    Clocked s₀ elapsed due (setLine v s) :=
  ⟨h.cfg, h.faults, h.initialized, h.ccifg, h.fgPhase, h.now, h.tar, h.ccr⟩

theorem Sampling.withLine {s₀ : State} {n : Nat} {v : Shift} {s : State} (h : Sampling s₀ n v s) (level : Bool) :
    Sampling s₀ n v (setLine level s) :=
  ⟨h.ccie, h.receiving, h.rxshWritten, h.bitcntWritten, h.bitcnt, h.rxsh, h.tmode, h.byteReady⟩

theorem Sampling.dispatch {s₀ : State} {n : Nat} {v : Shift} {s : State} (h : Sampling s₀ n v s) (k : Nat) :
    Sampling s₀ n v (atDispatch k s) :=
  ⟨h.ccie, h.receiving, h.rxshWritten, h.bitcntWritten, h.bitcnt, h.rxsh, h.tmode, h.byteReady⟩

/-- A reception begun in `s₀` after sample `k` and its handler, with `n` shifting samples still to take and `v` in the
incoming shift register: the next sample is due one bit time after the match of this one. -/
structure Receiving (s₀ : State) (lat : Nat → Nat) (k n : Nat) (v : Shift) (s : State) : Prop where
  clocked : Clocked s₀ (s₀.cfg.halfBitTime + k * s₀.cfg.bitTime + lat k)
    (s₀.cfg.halfBitTime + (k + 1) * s₀.cfg.bitTime) s
  sampling : Sampling s₀ n v s

/-- A handler with shifting samples left shifts in the level of the line. -/
theorem Receiving.of_dispatch {s₀ s : State} {lat : Nat → Nat} {k n m : Nat} {v : Shift}
    (hclock : Clocked s₀ (s₀.cfg.halfBitTime + k * s₀.cfg.bitTime + lat k)
      (s₀.cfg.halfBitTime + k * s₀.cfg.bitTime) (atDispatch m s))
    (hsample : Sampling s₀ (n + 1) v s) (hn : n < 10) :
    Receiving s₀ lat k n (sampledShift s.rxIn v >>> 1) (ccDispatch (atDispatch m s)) := by
  have hdue : s₀.cfg.halfBitTime + k * s₀.cfg.bitTime + s₀.cfg.bitTime =
      s₀.cfg.halfBitTime + (k + 1) * s₀.cfg.bitTime := by rw [Nat.succ_mul, Nat.add_assoc]
  rw [(hsample.dispatch m).ccDispatch_bit hn]
  exact
    { clocked := { hclock with ccr := hdue ▸ hclock.advance }
      sampling := ⟨hsample.ccie, hsample.receiving, rfl, rfl, rfl, rfl, hsample.tmode, hsample.byteReady⟩ }

section
variable {s₀ : State} {lineAt lat : Nat → Nat} (hlegal : s₀.cfg.legal = true) (hrx : s₀.cfg.rxEnabled = true)
  (hrun : s₀.tmode = .cont) (hlat : ∀ k, lat k < s₀.cfg.bitTime)
  (hline : ∀ k, lineAt k + lat k ≤ s₀.cfg.bitTime + lat (k + 1))
include hlegal hrx hrun hlat hline

/-- One round: the line change, at whatever tick, and the handler of the next sample. -/
theorem Receiving.play_round {s : State} {k n : Nat} {v : Shift} (h : Receiving s₀ lat k n v s) (level : Bool)
    (levels : List Bool) :
    State.play (receiveSchedule s₀.cfg.bitTime lineAt lat k (level :: levels)) s =
      State.play (receiveSchedule s₀.cfg.bitTime lineAt lat (k + 1) levels)
        (ccDispatch (atDispatch (s₀.cfg.bitTime + lat (k + 1) - lat k) (setLine level s))) ∧
    Clocked s₀ (s₀.cfg.halfBitTime + (k + 1) * s₀.cfg.bitTime + lat (k + 1))
      (s₀.cfg.halfBitTime + (k + 1) * s₀.cfg.bitTime)
      (atDispatch (s₀.cfg.bitTime + lat (k + 1) - lat k) (setLine level s)) := by
  obtain ⟨hbit, -⟩ := bounds_of_legal hlegal
  have hk := hlat k
  have hnext := hlat (k + 1)
  have hplace := hline k
  have hsucc : (k + 1) * s₀.cfg.bitTime = k * s₀.cfg.bitTime + s₀.cfg.bitTime := Nat.succ_mul ..
  have hclock := h.clocked.withLine level
  constructor
  · have hticks : lineAt k + (s₀.cfg.bitTime + lat (k + 1) - lat k - lineAt k) =
        s₀.cfg.bitTime + lat (k + 1) - lat k := by omega
    simp only [receiveSchedule, List.append_assoc, List.cons_append, List.nil_append]
    rw [play_ticks_line _ h.clocked.faults (by rw [h.clocked.cfg, hrx]), ← List.append_assoc, ← ticks_add, hticks]
    exact hclock.play_handler h.sampling.ccie (h.sampling.tmode.trans hrun) (by omega) (by omega) (by omega) (by omega)
  · have helapsed : s₀.cfg.halfBitTime + k * s₀.cfg.bitTime + lat k + (s₀.cfg.bitTime + lat (k + 1) - lat k) =
        s₀.cfg.halfBitTime + (k + 1) * s₀.cfg.bitTime + lat (k + 1) := by omega
    exact helapsed ▸ hclock.dispatch _

/-- The shifting samples one after another, and the stop sample last: its handler dispatches with all of them in the
register. -/
theorem exists_play_receiveSchedule (stop : Bool) (levels : List Bool) {s : State} {k : Nat} {v : Shift}
    (h : Receiving s₀ lat k levels.length v s) (hlen : levels.length ≤ 10) :
    ∃ t, State.play (receiveSchedule s₀.cfg.bitTime lineAt lat k (levels ++ [stop])) s = some (ccDispatch t) ∧
      t.rxIn = stop ∧ Sampling s₀ 0 (shiftIn v levels) t ∧
      Clocked s₀ (s₀.cfg.halfBitTime + (k + levels.length + 1) * s₀.cfg.bitTime + lat (k + levels.length + 1))
        (s₀.cfg.halfBitTime + (k + levels.length + 1) * s₀.cfg.bitTime) t := by
  induction levels generalizing s k v with
  | nil =>
    obtain ⟨hplay, hclock⟩ := h.play_round hlegal hrx hrun hlat hline stop []
    exact ⟨_, hplay, rfl, (h.sampling.withLine stop).dispatch _, hclock⟩
  | cons level levels ih =>
    obtain ⟨hplay, hclock⟩ := h.play_round hlegal hrx hrun hlat hline level (levels ++ [stop])
    have hnext := Receiving.of_dispatch hclock (h.sampling.withLine level) hlen
    obtain ⟨t, hrest, hlevel, hsample, hend⟩ := ih hnext (Nat.le_of_succ_le hlen)
    have hindex : k + (level :: levels).length + 1 = k + 1 + levels.length + 1 := by
      rw [List.length_cons]; omega
    exact ⟨t, hplay.trans hrest, hlevel, hsample, hindex ▸ hend⟩

omit hrx hline in
/-- The start sample: the handler half a bit time after the edge handler shifts in the level 0. -/
theorem play_start_sample (hclock : Clocked s₀ 0 s₀.cfg.halfBitTime s₀) (hsample : Sampling s₀ 9 0#10 s₀)
    (hlow : s₀.rxIn = false) :
    (∀ is, State.play (ticks (s₀.cfg.halfBitTime + lat 0) ++ .irqCc :: is) s₀ =
      State.play is (ccDispatch (atDispatch (s₀.cfg.halfBitTime + lat 0) s₀))) ∧
    Receiving s₀ lat 0 8 (sampledShift false 0#10 >>> 1)
      (ccDispatch (atDispatch (s₀.cfg.halfBitTime + lat 0) s₀)) := by
  obtain ⟨hbit, hhalf, hless⟩ := bounds_of_legal hlegal
  have h0 := hlat 0
  constructor
  · exact fun is => hclock.play_handler hsample.ccie hrun hhalf (by omega) (by omega) (by omega)
  · have hnext := hclock.dispatch (s₀.cfg.halfBitTime + lat 0)
    exact hlow ▸ Receiving.of_dispatch (by simpa using hnext) hsample (by decide)

end

/-- Settles O60: the half bit time to the start sample, the eight data samples and the stop sample; the last handler
finds the ten levels of the frame in the register. -/
theorem receiveSchedule : Obligations.ReceiveSchedule := by
  unfold Obligations.ReceiveSchedule
  intro s b stop lineAt lat hlegal hrx hlive hinit hrecv hrun hie hifg hsh hw hcount hcw htar hccr hlow hlat hline
  have hclock : Clocked s 0 s.cfg.halfBitTime s :=
    ⟨rfl, hlive, hinit, hifg, rfl, rfl, (timerSum_zero htar).symm, hccr⟩
  have hsample : Sampling s 9 0#10 s := ⟨hie, hrecv, hw, hcw, hcount, hsh, rfl, rfl⟩
  obtain ⟨hstart, hfirst⟩ := play_start_sample hlegal hrun hlat hclock hsample hlow
  obtain ⟨t, hplay, hlevel, hlast, hend⟩ :=
    exists_play_receiveSchedule hlegal hrx hrun hlat hline stop (shiftingLevels false b).tail hfirst
      (by simp [shiftingLevels])
  have hall : sampledShift t.rxIn (shiftIn (sampledShift false 0#10 >>> 1) (shiftingLevels false b).tail) =
      sampledFrame false b stop := hlevel ▸ sampledShift_shiftIn false b stop
  rw [hlast.ccDispatch_end, hall, validFrame_sampledFrame, frameData_sampledFrame] at hplay
  have hnow : t.now = s.now + s.cfg.halfBitTime + 9 * s.cfg.bitTime + lat 9 := by
    rw [hend.now, ← Nat.add_assoc, ← Nat.add_assoc]; rfl
  have hsplit := congrArg (State.play · s) (List.append_assoc (ticks (s.cfg.halfBitTime + lat 0)) [.irqCc]
    (Machine.receiveSchedule s.cfg.bitTime lineAt lat 0 (frameLevels b stop).tail))
  refine ⟨_, hsplit.trans ((hstart _).trans hplay), hnow, hend.tar, rfl, rfl, rfl, rfl, rfl, ?_, ?_, hend.fgPhase,
    hend.faults⟩
  · rintro rfl
    simp
  · rintro rfl
    simp [sampledFrame_of_low]

end Sys2Proof.Proofs
end
